-- ==== Sys2Proof/Word.lean ====
section
/-! DEFINITION. The word types of DSDCC-FSA (00_scope.md R11, R13): nothing here computes. -/

namespace Sys2Proof

/-- A 32-bit bus word or command word (20_memory.md R82, 30_encoding.md R110). -/
abbrev Word := BitVec 32

/-- A dibit, "a 2-bit demodulated symbol" (00_scope.md R13). -/
abbrev Dibit := BitVec 2

/-- An 8-bit element of a byte buffer (20_memory.md R83). -/
abbrev Byte := BitVec 8

/-- A 256-bit operand vector: OPD and RES (10_state.md R40, R41); codewords stand right-aligned in it (00_scope.md R12). -/
abbrev Vec := BitVec 256

/-- A byte offset inside the 8 KiB window 0x0000..0x1FFF (20_memory.md R80). -/
abbrev Offset := BitVec 13

end Sys2Proof
end

