-- ==== Sys2Proof/Config.lean ====
section
/-! DEFINITION. What an instance fixes (00_scope.md R9) and what the spec leaves to draw() (93_implementation_defined.md):
the configuration record, and the opaque constants. -/

namespace Sys2Proof

/-- An entry of CFG.SYNC_TABLE (43_sync.md R231). Its length L is pat.length. -/
structure SyncEntry where
  /-- protocol priority index 0..7 -/
  proto : BitVec 3
  /-- polarity, true inverted -/
  pol : Bool
  /-- station type: 0 none, 1 base station, 2 mobile station -/
  stn : BitVec 2
  /-- variant: 0 voice, 1 data, 2 short sync, 3 other -/
  var : BitVec 2
  /-- the NXDN short sync -/
  short : Bool
  /-- the pattern in transmission order, first dibit first -/
  pat : List Dibit
  /-- the most dibit mismatches that still count as a match -/
  tol : Nat
  /-- the voice-codec rate hint -/
  rate : BitVec 2
  /-- frames found by this entry carry status dibits -/
  statusEn : Bool
  /-- FRAME_CNT at the declaration, 0..35 -/
  statusPhase : Nat
deriving DecidableEq, Repr, Inhabited

/-- The configuration parameters of 00_scope.md R9, "fixed for the life of an instance". -/
structure Cfg where
  /-- CFG.P[c], c = 0..10: the parity rows of each code, row 0 (of u_0) first (40_block_fec.md R140) -/
  parityRows : Vector (List (BitVec 64)) 11
  /-- CFG.SYNC_TABLE -/
  syncTable : List SyncEntry
  /-- CFG.VIT_BT1 -/
  vitBt1 : Vector (BitVec 8) 8
  /-- CFG.VIT_BT2 -/
  vitBt2 : Vector (BitVec 8) 8
  /-- CFG.VIT_M -/
  vitM : BitVec 16
  /-- CFG.VIT_TAPS1 -/
  vitTaps1 : BitVec 5
  /-- CFG.VIT_TAPS2 -/
  vitTaps2 : BitVec 5
  /-- CFG.TRELLIS_NEXT[s][j] -/
  trellisNext : Vector (Vector (BitVec 4) 4) 4
  /-- CFG.PERM[s]: the list PERM_s, of length L_s -/
  perm : Vector (List Nat) 8
  /-- CFG.INV_MASK -/
  invMask : Dibit
deriving DecidableEq, Repr, Inhabited

/-- The elements whose value after power-on is unspecified (10_state.md R61, R62). -/
structure PowerOnBuffers where
  opd : Vec
  res : Vec
  info : BitVec 128
  syn : BitVec 64
  dec : Vector (BitVec 16) 300
  cin : BitVec 512
  cout : BitVec 512
  cenc : BitVec 1024
  tin : Vector Dibit 128
  tdib : Vector Dibit 49
  tout : Vector Byte 12
  din : Vector Dibit 128
deriving DecidableEq, Repr, Inhabited

namespace Config

/-- DESIGN CHOICE (log 1), safe: the parameters the instance was built with, before the constraints of R9 are imposed.
No body: nothing can be proved of them. -/
opaque raw : Cfg

/-- DESIGN CHOICE (log 18), safe: what State stores in the buffer elements that nothing has written since the n-th power-on.
They hold no value (10_state.md R62), and no command and no bus read gives what is stored there. No body. -/
opaque powerOn : Nat → PowerOnBuffers

/-- Free value (log 3), safe: the n-th draw() of a bus read, of which a read takes the bits of unwritten elements
(10_state.md R62). No body. -/
opaque drawWord : Nat → BitVec 32

/-- Free value (log 4), safe: the n-th draw() of SYN (40_block_fec.md R155, R156). No body. -/
opaque drawSyn : Nat → BitVec 64

end Config

end Sys2Proof
end

