-- ==== Sys2Proof/Syntax.lean ====
section
/-! DEFINITION. The commands of DSDCC-FSA as syntax: one constructor per row of spec/opcode_table.json. -/

namespace Sys2Proof

/-- The twelve codes of 00_scope.md R8, in CODE order 0..11. -/
inductive Code where
  | ham74 | ham106 | ham128 | ham1511 | ham1611
  | gol208 | gol2312 | gol2412 | gol24128
  | bch6316 | qr167 | rs2412
deriving DecidableEq, Repr, Inhabited

/-- A command with its operand fields (30_encoding.md R112, R113), named as the opcode map R116 names it. -/
inductive Instr where
  | nop
  | softReset
  | fecDecode (code : Code)
  | fecEncode (code : Code)
  | convStart
  | convStep (s0 s1 : BitVec 8)
  | convChainback (nbits : BitVec 9)
  | convEncode (nbits : BitVec 9)
  | trellis12
  | pushSymbol (d : Dibit)
  | pushSample (v : BitVec 16)
  | resync (abort : Bool)
  | syncReset
  | deint (slot : BitVec 3)
  | pack (off cnt : BitVec 7) (shr : BitVec 4)
deriving DecidableEq, Repr, Inhabited

end Sys2Proof
end

