-- ==== Sys2Proof/WellFormed.lean ====
section
/-! DEFINITION. Which terms of Instr are commands of the opcode map (30_encoding.md R118). -/

namespace Sys2Proof

/-- The field widths are in the types, so one check is left: "CODE 11 (RS_24_12) in FEC_ENCODE" is an illegal field
value (30_encoding.md R118, R125). Whether a DEINT slot is present is a question to the configuration, asked by the
command itself (log 9). -/
def Instr.wellFormed : Instr → Bool
  | .fecEncode .rs2412 => false
  | .fecEncode _ => true
  | .nop => true
  | .softReset => true
  | .fecDecode _ => true
  | .convStart => true
  | .convStep _ _ => true
  | .convChainback _ => true
  | .convEncode _ => true
  | .trellis12 => true
  | .pushSymbol _ => true
  | .pushSample _ => true
  | .resync _ => true
  | .syncReset => true
  | .deint _ => true
  | .pack _ _ _ => true

end Sys2Proof
end

