-- ==== Sys2Proof/Decode.lean ====
section
/-! DEFINITION. Command decoding in the order of 30_encoding.md R114, and the encoder of R126. -/

namespace Sys2Proof

/-- Why a command word is no command: the three checks of 30_encoding.md R114, in their order. -/
inductive DecodeError where
  /-- (UNIT, OP) is no row of the opcode map (R116, R119, R120, R123). -/
  | undefinedOp
  /-- A bit that is neither header nor a named field is 1 (R115). -/
  | reservedBit
  /-- A field holds an illegal value (R118, R125). -/
  | illegalField
deriving DecidableEq, Repr

/-- The rows of the opcode map, 30_encoding.md R116. -/
inductive Opcode where
  | nop | softReset | fecDecode | fecEncode | convStart | convStep | convChainback | convEncode
  | trellis12 | pushSymbol | pushSample | resync | syncReset | deint | pack
deriving DecidableEq, Repr

/-- The opcode map in the order of R116. -/
def opMap : List Opcode :=
  [.nop, .softReset, .fecDecode, .fecEncode, .convStart, .convStep, .convChainback, .convEncode,
   .trellis12, .pushSymbol, .pushSample, .resync, .syncReset, .deint, .pack]

/-- UNIT and OP of a row, bits 31:24 of its words (R111, R116). -/
def Opcode.header : Opcode → BitVec 8
  | .nop => 0x00
  | .softReset => 0x01
  | .fecDecode => 0x10
  | .fecEncode => 0x11
  | .convStart => 0x20
  | .convStep => 0x21
  | .convChainback => 0x22
  | .convEncode => 0x23
  | .trellis12 => 0x30
  | .pushSymbol => 0x40
  | .pushSample => 0x41
  | .resync => 0x42
  | .syncReset => 0x43
  | .deint => 0x50
  | .pack => 0x51

/-- The bits of a row's named fields (R112). -/
def Opcode.fieldMask : Opcode → BitVec 24
  | .nop | .softReset | .convStart | .trellis12 | .syncReset => 0x000000
  | .fecDecode | .fecEncode => 0x00000F
  | .convStep => 0x00FFFF
  | .convChainback | .convEncode => 0x0001FF
  | .pushSymbol => 0x000003
  | .pushSample => 0x00FFFF
  | .resync => 0x000001
  | .deint => 0x000007
  | .pack => 0x0F7F7F

/-- RESERVED_MASK of R114 and R115: "the complement of the opcode row's field bits and header". -/
def Opcode.reservedMask (o : Opcode) : Word := 0#8 ++ ~~~o.fieldMask

/-- The CODE numbers of 00_scope.md R8 and 30_encoding.md R117. -/
def Code.num : Code → BitVec 4
  | .ham74 => 0
  | .ham106 => 1
  | .ham128 => 2
  | .ham1511 => 3
  | .ham1611 => 4
  | .gol208 => 5
  | .gol2312 => 6
  | .gol2412 => 7
  | .gol24128 => 8
  | .bch6316 => 9
  | .qr167 => 10
  | .rs2412 => 11

/-- All codes in CODE order. -/
def Code.all : List Code :=
  [.ham74, .ham106, .ham128, .ham1511, .ham1611, .gol208, .gol2312, .gol2412, .gol24128, .bch6316, .qr167, .rs2412]

/-- The code a CODE field selects; CODE 12 to 15 select none (R118). -/
def Code.ofNum (c : BitVec 4) : Option Code := Code.all.find? (fun x => x.num == c)

/-- The operand fields of a row's format (R112, R113), with the field values of R118 refused. -/
def Opcode.fields (o : Opcode) (v : Word) : Option Instr :=
  match o with
  | .nop => some .nop
  | .softReset => some .softReset
  | .fecDecode => (Code.ofNum (v.extractLsb' 0 4)).map .fecDecode
  | .fecEncode => ((Code.ofNum (v.extractLsb' 0 4)).map .fecEncode).filter Instr.wellFormed
  | .convStart => some .convStart
  | .convStep => some (.convStep (v.extractLsb' 8 8) (v.extractLsb' 0 8))
  | .convChainback => some (.convChainback (v.extractLsb' 0 9))
  | .convEncode => some (.convEncode (v.extractLsb' 0 9))
  | .trellis12 => some .trellis12
  | .pushSymbol => some (.pushSymbol (v.extractLsb' 0 2))
  | .pushSample => some (.pushSample (v.extractLsb' 0 16))
  | .resync => some (.resync (v.getLsbD 0))
  | .syncReset => some .syncReset
  | .deint => some (.deint (v.extractLsb' 0 3))
  | .pack => some (.pack (v.extractLsb' 0 7) (v.extractLsb' 8 7) (v.extractLsb' 16 4))

/-- The row a word's header selects, if any (first check of R114). -/
def Opcode.ofWord (v : Word) : Option Opcode := opMap.find? (fun o => o.header == v.extractLsb' 24 8)

/-- Decoding of a command word, total on every word: "the first check that fails decides the outcome" (R114). -/
def decode (v : Word) : Except DecodeError Instr :=
  match Opcode.ofWord v with
  | none => .error .undefinedOp
  | some o =>
    if v &&& o.reservedMask != 0 then .error .reservedBit
    else
      match o.fields v with
      | none => .error .illegalField
      | some i => .ok i

/-- The row an instruction belongs to. -/
def Instr.opcode : Instr → Opcode
  | .nop => .nop
  | .softReset => .softReset
  | .fecDecode _ => .fecDecode
  | .fecEncode _ => .fecEncode
  | .convStart => .convStart
  | .convStep _ _ => .convStep
  | .convChainback _ => .convChainback
  | .convEncode _ => .convEncode
  | .trellis12 => .trellis12
  | .pushSymbol _ => .pushSymbol
  | .pushSample _ => .pushSample
  | .resync _ => .resync
  | .syncReset => .syncReset
  | .deint _ => .deint
  | .pack _ _ _ => .pack

/-- Bits 23:0 of an instruction's word: its fields in the places of R112, reserved bits 0. -/
def Instr.operandBits : Instr → BitVec 24
  | .nop | .softReset | .convStart | .trellis12 | .syncReset => 0
  | .fecDecode c | .fecEncode c => 0#20 ++ c.num
  | .convStep s0 s1 => 0#8 ++ s0 ++ s1
  | .convChainback n | .convEncode n => 0#15 ++ n
  | .pushSymbol d => 0#22 ++ d
  | .pushSample v => 0#8 ++ v
  | .resync a => 0#23 ++ BitVec.ofBool a
  | .deint s => 0#21 ++ s
  | .pack off cnt shr => 0#4 ++ shr ++ 0#1 ++ cnt ++ 0#1 ++ off

/-- The command word of an instruction (30_encoding.md R126). -/
def encode (i : Instr) : Word := i.opcode.header ++ i.operandBits

/-- The host's reading of the decoder on one opcode-table row: the word w of nbits bits, every bit above nbits 0. A
command is one 32-bit bus write (R110), so the word is what the decoder takes. -/
def decodeTableWord (nbits w : Nat) : Option Instr :=
  match decode (BitVec.ofNat 32 (w % 2 ^ nbits)) with
  | .ok i => some i
  | .error _ => none

end Sys2Proof
end

