-- ==== Sys2Proof/Machine/Parameters.lean ====
section
/-! DEFINITION. What is computed from the configuration alone: the code dimensions, parity, minimum distance and
correction depth (40_block_fec.md R140 to R144), N_W (00_scope.md R10), the constraints of 00_scope.md R9, and the
example configuration EX (92_eei_decisions.md D44). -/

namespace Sys2Proof

/-- n of 00_scope.md R8, in bits. -/
def Code.n : Code → Nat
  | .ham74 => 7
  | .ham106 => 10
  | .ham128 => 12
  | .ham1511 => 15
  | .ham1611 => 16
  | .gol208 => 20
  | .gol2312 => 23
  | .gol2412 => 24
  | .gol24128 => 24
  | .bch6316 => 63
  | .qr167 => 16
  | .rs2412 => 144

/-- k of 00_scope.md R8, in bits. -/
def Code.k : Code → Nat
  | .ham74 => 4
  | .ham106 => 6
  | .ham128 => 8
  | .ham1511 => 11
  | .ham1611 => 11
  | .gol208 => 8
  | .gol2312 => 12
  | .gol2412 => 12
  | .gol24128 => 12
  | .bch6316 => 16
  | .qr167 => 7
  | .rs2412 => 72

/-- The codes that have a syndrome table: "BCH_63_16 and RS_24_12 have no table" (40_block_fec.md R144). -/
def Code.hasTable : Code → Bool
  | .bch6316 | .rs2412 => false
  | .ham74 | .ham106 | .ham128 | .ham1511 | .ham1611 | .gol208 | .gol2312 | .gol2412 | .gol24128 | .qr167 => true

/-- The number of 1 bits among the n low bits of v. -/
def onesBelow : Nat → Nat → Nat
  | 0, _ => 0
  | n + 1, v => v % 2 + onesBelow n (v / 2)

/-- popcount(v), the number of 1 bits (00_scope.md R11). -/
def popcount {w : Nat} (v : BitVec w) : Nat := onesBelow w v.toNat

/-- v[lo+len−1 : lo] zero-extended (or cut) to m bits (00_scope.md R11). -/
def slice {w : Nat} (m : Nat) (v : BitVec w) (lo len : Nat) : BitVec m := (v.extractLsb' lo len).setWidth m

/-- CFG.P[c]; RS_24_12 has no generator (40_block_fec.md R140). -/
def Cfg.rows (cfg : Cfg) (c : Code) : List (BitVec 64) := cfg.parityRows.getD c.num.toNat []

/-- The parity word of the k-bit information word u: the XOR of the rows P[i] with u[k−1−i] = 1 (40_block_fec.md R141). -/
def parity (rows : List (BitVec 64)) (k : Nat) (u : Vec) : BitVec 64 :=
  (List.range k).foldr (fun i acc => (if u.getLsbD (k - 1 - i) then rows.getD i 0 else 0) ^^^ acc) 0

/-- encode_c(U) = U ‖ parity_c(U), right-aligned (40_block_fec.md R141). Only U[k−1:0] is read. -/
def Cfg.encodeWord (cfg : Cfg) (c : Code) (u : Vec) : Vec :=
  (slice 256 u 0 c.k <<< (c.n - c.k)) ||| (parity (cfg.rows c) c.k u).setWidth 256

/-- syndrome_c(CW) = CW[n−k−1:0] ⊕ parity_c(CW[n−1:n−k]) (40_block_fec.md R142). -/
def Cfg.syndrome (cfg : Cfg) (c : Code) (cw : Vec) : BitVec 64 :=
  slice 64 cw 0 (c.n - c.k) ^^^ parity (cfg.rows c) c.k (slice 256 cw (c.n - c.k) c.k)

/-- Row i of G_c = [I_k │ P_c] as a right-aligned n-bit word: the codeword of the information word whose only 1 is u_i. -/
def Cfg.generatorRow (cfg : Cfg) (c : Code) (i : Nat) : Vec :=
  BitVec.twoPow 256 (c.n - 1 - i) ||| ((cfg.rows c).getD i 0).setWidth 256

/-- The least weight of acc ⊕ (an XOR of some of the rows), leaving out the XOR of no rows when `used` is false; the
words are n-bit integers (00_scope.md R12), and n + 1 stands for "no such word". -/
def minWeight (n : Nat) : List Nat → Nat → Bool → Nat
  | [], acc, used => if used then onesBelow n acc else n + 1
  | r :: rs, acc, used => min (minWeight n rs acc used) (minWeight n rs (acc ^^^ r) true)

/-- dmin_c, "the minimum Hamming weight of a nonzero codeword of the configured generator matrix" (00_scope.md R8). -/
def Cfg.dmin (cfg : Cfg) (c : Code) : Nat := 
  minWeight c.n ((List.range c.k).map (fun i => (cfg.generatorRow c i).toNat)) 0 false

/-- The correction depth t_c (40_block_fec.md R144): 2 for GOL_24_12_8, the stub depth; floor((dmin_c − 1)/2) for every
other code with a table. -/
def Cfg.depth (cfg : Cfg) (c : Code) : Nat :=
  match c with
  | .gol24128 => 2
  | .ham74 | .ham106 | .ham128 | .ham1511 | .ham1611 | .gol208 | .gol2312 | .gol2412 | .qr167
  | .bch6316 | .rs2412 => (cfg.dmin c - 1) / 2

/-- N_W, "the largest pattern length in CFG.SYNC_TABLE" (00_scope.md R10). -/
def Cfg.nW (cfg : Cfg) : Nat := cfg.syncTable.foldr (fun e m => max e.pat.length m) 0

/-- PERM_s (44_deinterleave.md R281). -/
def Cfg.permOf (cfg : Cfg) (slot : Nat) : List Nat := cfg.perm.getD slot []

/-- The slot exists: L_s > 0 (44_deinterleave.md R281). -/
def Cfg.slotPresent (cfg : Cfg) (slot : Nat) : Bool := (cfg.permOf slot).length != 0

/-- CFG.P[c] has k_c rows of (n_c − k_c)-bit vectors (00_scope.md R9). -/
def Cfg.rowsOk (cfg : Cfg) (c : Code) : Bool :=
  (cfg.rows c).length == c.k && (cfg.rows c).all (fun r => decide (r.toNat < 2 ^ (c.n - c.k)))

/-- "The configuration must give 1 ≤ t_c ≤ 3 for every code with a table … and dmin_8 ≥ 5" (40_block_fec.md R144). -/
def Cfg.depthOk (cfg : Cfg) (c : Code) : Bool :=
  decide (1 ≤ cfg.depth c ∧ cfg.depth c ≤ 3) && (c != .gol24128 || decide (5 ≤ cfg.dmin c))

/-- The ranges of 43_sync.md R231. -/
def SyncEntry.ok (e : SyncEntry) : Bool :=
  decide (e.stn.toNat ≤ 2) && (!e.short || e.proto == 5) && decide (1 ≤ e.pat.length) &&
  decide (e.tol ≤ e.pat.length) && decide (e.statusPhase ≤ 35)

/-- "entries are sorted by e.proto ascending" (43_sync.md R232). -/
def sortedByProto : List SyncEntry → Bool
  | [] => true
  | [_] => true
  | a :: b :: rest => decide (a.proto.toNat ≤ b.proto.toNat) && sortedByProto (b :: rest)

/-- PERM_s is "a permutation of 0..L_s−1", of length at most 128 (44_deinterleave.md R281). -/
def permOk (p : List Nat) : Bool :=
  decide (p.length ≤ 128) && (List.range p.length).all (fun i => p.contains i)

/-- The constraints on a configuration: 00_scope.md R9 and R10, 40_block_fec.md R144, 43_sync.md R231 and R232,
44_deinterleave.md R281. -/
def Cfg.wf (cfg : Cfg) : Bool :=
  (Code.all.filter (· != .rs2412)).all cfg.rowsOk &&
  (Code.all.filter Code.hasTable).all cfg.depthOk &&
  decide (cfg.syncTable.length ≤ 255) && cfg.syncTable.all SyncEntry.ok && sortedByProto cfg.syncTable &&
  decide (24 ≤ cfg.nW ∧ cfg.nW ≤ 64) &&
  cfg.vitTaps1.getLsbD 0 && cfg.vitTaps2.getLsbD 0 &&
  cfg.perm.toList.all permOk && (cfg.permOf 0).length == 98

namespace Config

/-- The parity rows of EX (40_block_fec.md R160). -/
def exRows : Vector (List (BitVec 64)) 11 :=
  #v[[0x6, 0x5, 0x3, 0x7],
     [0x3, 0x5, 0x6, 0x7, 0x9, 0xA],
     [0x3, 0x5, 0x6, 0x7, 0x9, 0xA, 0xB, 0xC],
     [0x3, 0x5, 0x6, 0x7, 0x9, 0xA, 0xB, 0xC, 0xD, 0xE, 0xF],
     [0x07, 0x0B, 0x0D, 0x0E, 0x13, 0x15, 0x16, 0x19, 0x1A, 0x1C, 0x1F],
     [0x3DA, 0xD99, 0x6CD, 0x367, 0xDC6, 0xA97, 0x93E, 0x8EB],
     [0x63A, 0x31D, 0x7B4, 0x3DA, 0x1ED, 0x6CC, 0x366, 0x1B3, 0x6E3, 0x54B, 0x49F, 0x475],
     [0xC75, 0x63B, 0xF68, 0x7B4, 0x3DA, 0xD99, 0x6CD, 0x367, 0xDC6, 0xA97, 0x93E, 0x8EB],
     [0xC75, 0x63B, 0xF68, 0x7B4, 0x3DA, 0xD99, 0x6CD, 0x367, 0xDC6, 0xA97, 0x93E, 0x8EB],
     [0x66C985EE9D95, 0x55AD4719D35F, 0x4C1F2662743A, 0x260F93313A1D, 0x75CE4C76009B, 0x5C2EA3D59DD8,
      0x2E1751EACEEC, 0x170BA8F56776, 0x0B85D47AB3BB, 0x630B6FD3C448, 0x3185B7E9E224, 0x18C2DBF4F112,
      0x0C616DFA7889, 0x60F93313A1D1, 0x56B51C674D7D, 0x4D930BDD3B2B],
     [0x1D1, 0x0E9, 0x075, 0x03B, 0x1CC, 0x0E6, 0x1A3]]

/-- The sync table of EX (43_sync.md R260). -/
def exSyncTable : List SyncEntry :=
  [{ proto := 0, pol := false, stn := 0, var := 3, short := false,
     pat := [1,1,1,1,1,3,1,1,3,3,1,1,3,3,3,3,1,3,1,3,3,3,3,3],
     tol := 0, rate := 0, statusEn := true, statusPhase := 24 },
   { proto := 0, pol := true, stn := 0, var := 3, short := false,
     pat := [3,3,3,3,3,1,3,3,1,1,3,3,1,1,1,1,3,1,3,1,1,1,1,1],
     tol := 0, rate := 0, statusEn := true, statusPhase := 24 },
   { proto := 3, pol := false, stn := 1, var := 0, short := false,
     pat := [1,3,1,1,1,1,3,3,3,1,1,3,3,1,3,3,1,3,1,1,3,3,1,3],
     tol := 0, rate := 0, statusEn := false, statusPhase := 0 },
   { proto := 5, pol := false, stn := 0, var := 3, short := false,
     pat := [3,1,3,1,3,3,1,1,3,1,3,1,1,1,1,3,3,3],
     tol := 0, rate := 0, statusEn := false, statusPhase := 0 },
   { proto := 5, pol := false, stn := 0, var := 2, short := true,
     pat := [1,3,1,3,3,1,1,3,3,3],
     tol := 0, rate := 0, statusEn := false, statusPhase := 0 }]

/-- PERM_0 of EX (44_deinterleave.md R294). -/
def exPerm0 : List Nat :=
  [0, 1, 8, 9, 16, 17, 24, 25, 32, 33, 40, 41, 48, 49, 56, 57, 64, 65, 72, 73, 80, 81, 88, 89, 96, 97] ++
  [2, 3, 10, 11, 18, 19, 26, 27, 34, 35, 42, 43, 50, 51, 58, 59, 66, 67, 74, 75, 82, 83, 90, 91] ++
  [4, 5, 12, 13, 20, 21, 28, 29, 36, 37, 44, 45, 52, 53, 60, 61, 68, 69, 76, 77, 84, 85, 92, 93] ++
  [6, 7, 14, 15, 22, 23, 30, 31, 38, 39, 46, 47, 54, 55, 62, 63, 70, 71, 78, 79, 86, 87, 94, 95]

/-- EX, the example configuration (92_eei_decisions.md D44). PRESUMED (log 2), safe: its values are the spec's general
knowledge, "a model must not assume EX is the hardware's configuration"; only tests and witnesses use it. -/
def ex : Cfg where
  parityRows := exRows
  syncTable := exSyncTable
  vitBt1 := #v[0, 0, 0, 0, 2, 2, 2, 2]
  vitBt2 := #v[0, 2, 2, 0, 0, 2, 2, 0]
  vitM := 4
  vitTaps1 := 0x19
  vitTaps2 := 0x17
  trellisNext := #v[#v[0x2, 0xC, 0x1, 0xF], #v[0xE, 0x0, 0xD, 0x3], #v[0x9, 0x7, 0xA, 0x4], #v[0x5, 0xB, 0x6, 0x8]]
  perm := #v[exPerm0, [], [], [], [], [], [], []]
  invMask := 0b10

/-- The configuration the instance was built with: any one that meets the constraints (log 1). EX stands here only so
that the constant is a valid configuration whatever `raw` is; nothing can be proved to make `built` equal EX. -/
def built : Cfg := if raw.wf then raw else ex

end Config

end Sys2Proof
end

