-- ==== Sys2Proof/Machine/State.lean ====
section
/-! DEFINITION. The state of one DSDCC-FSA instance (10_state.md), as plain data, and the state after power-on reset
(70_reset_and_hazards.md R351). -/

namespace Sys2Proof.Machine

/-- SYNC_STATE (10_state.md R66); "3 is never held". -/
inductive SyncState where
  | look | found | locked
deriving DecidableEq, Repr, Inhabited

/-- FEC_RES (10_state.md R44). -/
structure FecRes where
  done : Bool
  ok : Bool
  enc : Bool
  stub : Bool
  code : BitVec 4
  nflip : BitVec 4
deriving DecidableEq, Repr, Inhabited

/-- TRL_RES (10_state.md R55). -/
structure TrlRes where
  done : Bool
  ok : Bool
  steps : BitVec 6
  failStep : BitVec 6
deriving DecidableEq, Repr, Inhabited

/-- SYNC_INFO (10_state.md R72). -/
structure SyncInfo where
  valid : Bool
  proto : BitVec 3
  epol : Bool
  stn : BitVec 2
  var : BitVec 2
  rate : BitVec 2
  entry : BitVec 8
  mism : BitVec 8
deriving DecidableEq, Repr, Inhabited

/-- The register value 0 of FEC_RES. -/
def FecRes.zero : FecRes := { done := false, ok := false, enc := false, stub := false, code := 0, nflip := 0 }

/-- The register value 0 of TRL_RES. -/
def TrlRes.zero : TrlRes := { done := false, ok := false, steps := 0, failStep := 0 }

/-- The register value 0 of SYNC_INFO. -/
def SyncInfo.zero : SyncInfo :=
  { valid := false, proto := 0, epol := false, stn := 0, var := 0, rate := 0, entry := 0, mism := 0 }

/-- Global control and status (10_state.md R35 to R39). -/
structure Control where
  /-- CTRL[8:0]: EN[7:0] and CAP_EN; bits 31:9 do not exist -/
  ctrl : BitVec 9
  /-- the sticky bits of STATUS, each at its STATUS bit number -/
  sticky : Word
  irqEn : Word
  sqThresh : Word
  /-- ERRCODE[3:0] -/
  errCode : BitVec 4
  errInfo : Word
deriving DecidableEq, Repr, Inhabited

/-- The block FEC unit (10_state.md R40 to R44). -/
structure FecUnit where
  opd : Vec
  res : Vec
  info : BitVec 128
  syn : BitVec 64
  fecRes : FecRes
deriving DecidableEq, Repr, Inhabited

/-- The Viterbi unit (10_state.md R45 to R51). In cin, cout and cenc bit b of the vector is STREAM bit b. -/
structure VitUnit where
  pm : Vector (BitVec 16) 16
  dp : Nat
  dec : Vector (BitVec 64) 300
  cin : BitVec 512
  cout : BitVec 512
  cenc : BitVec 1024
deriving DecidableEq, Repr, Inhabited

/-- The trellis unit (10_state.md R52 to R55). -/
structure TrlUnit where
  tin : Vector Dibit 128
  tdib : Vector Dibit 64
  tout : Vector Byte 16
  trlRes : TrlRes
deriving DecidableEq, Repr, Inhabited

/-- The sync unit (10_state.md R56, R57, R66 to R76). -/
structure SyncUnit where
  /-- W[0..N_W−1], newest symbol first -/
  window : List Dibit
  vcnt : Nat
  state : SyncState
  warmT : Nat
  searchCnt : Nat
  nxdnCnt : Word
  nxdnValid : Bool
  sqCnt : Word
  info : SyncInfo
  pol : Bool
  stEn : Bool
  frameCnt : Word
deriving DecidableEq, Repr, Inhabited

/-- The deinterleave unit (10_state.md R77 to R79). -/
structure DilUnit where
  din : Vector Dibit 128
  capPtr : Nat
  /-- STAT[1:0] -/
  statDibit : Dibit
  /-- STAT[31:8] -/
  statCnt : BitVec 24
deriving DecidableEq, Repr, Inhabited

/-- The width of a bus access; only 32 bits is good (20_memory.md R82). -/
inductive AccessWidth where
  | w8 | w16 | w32 | w64
deriving DecidableEq, Repr, Inhabited

/-- What the host can do to the block (70_reset_and_hazards.md R350, R365). -/
inductive HostInput where
  /-- a bus read of an offset -/
  | read (offset : Offset) (width : AccessWidth)
  /-- a bus write of a value at an offset -/
  | write (offset : Offset) (width : AccessWidth) (value : Word)
  /-- RST_N is driven to 0 -/
  | resetLow
  /-- RST_N is driven to 1 -/
  | resetHigh
deriving DecidableEq, Repr, Inhabited

/-- The buffers whose elements commands read (the operands of 40_block_fec.md R145, R150, 41_viterbi.md R185, R187,
42_trellis.md R211, 44_deinterleave.md R282, R283). -/
inductive OperandBuffer where
  | opd | dec | cin | tin | din
deriving DecidableEq, Repr, Inhabited

/-- Why the machine stops with a fault. The hardware "has no trap" (60_exceptions.md R320); the one fault is a fault of the
model, which the spec itself asks of a model (log 11). -/
inductive Fault where
  /-- UNWRITTEN (10_state.md R62; U1 of 93_implementation_defined.md): the command reads this element of this buffer, and
  no command or bus write has given it a value since power-on. Raised by State.reading for FEC_DECODE, FEC_ENCODE,
  CONV_CHAINBACK, CONV_ENCODE, TRELLIS12, DEINT and PACK. Safe: nothing is claimed of the run past it. -/
  | unwritten (command : Instr) (buffer : OperandBuffer) (element : Nat)
deriving DecidableEq, Repr

/-- Why the machine has no meaning for a command. -/
inductive Refusal where
  /-- An arm of exec without a meaning; safe (the machine stops). No arm of this model raises it. -/
  | notModelled (mnemonic : String)
deriving DecidableEq, Repr

/-- One bit vector or vector of elements for each buffer of 10_state.md R61, in the shape the units hold it. -/
structure Buffers where
  opd : Vec
  res : Vec
  info : BitVec 128
  syn : BitVec 64
  dec : Vector (BitVec 64) 300
  cin : BitVec 512
  cout : BitVec 512
  cenc : BitVec 1024
  tin : Vector Dibit 128
  tdib : Vector Dibit 64
  tout : Vector Byte 16
  din : Vector Dibit 128
deriving DecidableEq, Repr, Inhabited

/-- Every bit of an unspecified element 1, every bit the spec fixes at 0 (DEC 63:16, TDIB[49..63], TOUT[12..15]) 0: the
elements of 10_state.md R61 that hold no value after power-on. -/
def Buffers.allUnwritten : Buffers where
  opd := BitVec.allOnes 256
  res := BitVec.allOnes 256
  info := BitVec.allOnes 128
  syn := BitVec.allOnes 64
  dec := Vector.replicate 300 0xFFFF
  cin := BitVec.allOnes 512
  cout := BitVec.allOnes 512
  cenc := BitVec.allOnes 1024
  tin := Vector.replicate 128 3
  tdib := Vector.ofFn (fun i : Fin 64 => if i.val < 49 then 3 else 0)
  tout := Vector.ofFn (fun i : Fin 16 => if i.val < 12 then 0xFF else 0)
  din := Vector.replicate 128 3

/-- The state of one instance. -/
structure State where
  /-- the parameters the instance was built with; no step changes them (10_state.md R32; log 1) -/
  cfg : Cfg
  ctl : Control
  fec : FecUnit
  vit : VitUnit
  trl : TrlUnit
  sync : SyncUnit
  dil : DilUnit
  /-- which buffer elements hold no value yet (10_state.md R62): the bits of an element are 1 until a command or a bus
  write gives it a value, and 0 from then on -/
  unwritten : Buffers
  /-- the level of RST_N (70_reset_and_hazards.md R350) -/
  rstN : Bool
  /-- the model's own (log 6): the host's accesses not yet taken, oldest first -/
  pending : List HostInput
  /-- the model's own (log 7): the word the last bus read returned -/
  rdata : Word
  /-- the model's own (log 5): how many free values were taken -/
  draws : Nat
deriving DecidableEq, Repr, Inhabited

/-- The sync unit "as at power-on" (43_sync.md R250; 10_state.md R61). -/
def SyncUnit.reset (cfg : Cfg) : SyncUnit where
  window := List.replicate cfg.nW 0
  vcnt := 0
  state := .look
  warmT := 0
  searchCnt := 0
  nxdnCnt := 0
  nxdnValid := false
  sqCnt := 0
  info := SyncInfo.zero
  pol := false
  stEn := false
  frameCnt := 0

/-- The power-on reset state of an instance (70_reset_and_hazards.md R351), for any configuration and any contents of
the unspecified buffers. DEC bits 63:16, TDIB[49..63] and TOUT[12..15] are 0 (10_state.md R48, R53, R54). -/
def State.powerOn (cfg : Cfg) (b : PowerOnBuffers) : State where
  cfg := cfg
  ctl := { ctrl := 0, sticky := 0, irqEn := 0, sqThresh := 0, errCode := 0, errInfo := 0 }
  fec := { opd := b.opd, res := b.res, info := b.info, syn := b.syn, fecRes := FecRes.zero }
  vit := { pm := Vector.replicate 16 0, dp := 0, dec := b.dec.map (fun d => d.setWidth 64),
           cin := b.cin, cout := b.cout, cenc := b.cenc }
  trl := { tin := b.tin, tdib := Vector.ofFn (fun i : Fin 64 => b.tdib.getD i 0),
           tout := Vector.ofFn (fun i : Fin 16 => b.tout.getD i 0), trlRes := TrlRes.zero }
  sync := SyncUnit.reset cfg
  dil := { din := b.din, capPtr := 0, statDibit := 0, statCnt := 0 }
  unwritten := Buffers.allUnwritten
  rstN := true
  pending := []
  rdata := 0
  draws := 1

/-- The machine right after reset: the instance's own configuration (log 1), no buffer element written (their stored
contents, which nothing reads, are opaque: log 18), no access waiting (log 6). -/
def State.reset : State := State.powerOn Config.built (Config.powerOn 0)

end Sys2Proof.Machine
end

