-- ==== Sys2Proof/Machine/Flags.lean ====
section
/-! DEFINITION. The status register, its sticky bits, the result registers as words, and the interrupt output
(10_state.md R34 to R37, R44, R55, R72, R77; 60_exceptions.md R321 to R328). -/

namespace Sys2Proof.Machine

/-- The error causes with a code (60_exceptions.md R322 to R326). -/
inductive ErrKind where
  | illegal | cap | range | ovf | bus
deriving DecidableEq, Repr

/-- The events (60_exceptions.md R327). -/
inductive Event where
  | sync | nosync | squelch | status | fecFail | trlFail
deriving DecidableEq, Repr

/-- The STATUS bit of an error (10_state.md R36). -/
def ErrKind.bit : ErrKind → Nat
  | .illegal => 16
  | .cap => 17
  | .range => 18
  | .ovf => 19
  | .bus => 20

/-- The ERRCODE of an error (10_state.md R39). -/
def ErrKind.code : ErrKind → BitVec 4
  | .illegal => 1
  | .cap => 2
  | .range => 3
  | .ovf => 4
  | .bus => 5

/-- The STATUS bit of an event (60_exceptions.md R327). -/
def Event.bit : Event → Nat
  | .sync => 8
  | .nosync => 9
  | .squelch => 10
  | .status => 11
  | .fecFail => 12
  | .trlFail => 13

/-- The STATUS bits that are sticky flags: 20:8 less the absent bits 15:14 (10_state.md R36, R37). -/
def stickyMask : Word := 0x001F3F00

/-- SYNC_STATE as the two bits STATUS[1:0] (10_state.md R66). -/
def SyncState.bits : SyncState → BitVec 2
  | .look => 0
  | .found => 1
  | .locked => 2

/-- WARM: 1 while WARM_T < 18 (10_state.md R36). -/
def SyncUnit.warm (u : SyncUnit) : Bool := decide (u.warmT < 18)

/-- The live bits 5:0 of STATUS: ST_EN, POL, NXDN_VALID, WARM, SYNC_STATE (10_state.md R36). -/
def SyncUnit.liveBits (u : SyncUnit) : BitVec 6 :=
  BitVec.ofBool u.stEn ++ BitVec.ofBool u.pol ++ BitVec.ofBool u.nxdnValid ++ BitVec.ofBool u.warm ++ u.state.bits

/-- The word a read of STATUS gives (10_state.md R36): "All other bits read 0". -/
def State.statusWord (s : State) : Word := (s.ctl.sticky &&& stickyMask) ||| s.sync.liveBits.setWidth 32

/-- IRQ, active high: the OR over the sticky bits of STATUS[i] AND IRQ_EN[i] (60_exceptions.md R328); "While RST_N is 0 …
IRQ is 0" (70_reset_and_hazards.md R350). DEDUCED (log 19), unsafe: R328 adds that IRQ "changes only at the end of a command
or a bus write", but a bad bus read sets ERR_BUS too (20_memory.md R84, R92), and with IRQ_EN[20] = 1 the formula then
changes IRQ at that read; the formula is followed. -/
def State.irq (s : State) : Bool := s.rstN && (s.ctl.sticky &&& s.ctl.irqEn &&& stickyMask != 0)

/-- CTRL.EN[p] (10_state.md R35). -/
def Control.en (c : Control) (p : BitVec 3) : Bool := c.ctrl.getLsbD p.toNat

/-- CTRL.CAP_EN (10_state.md R35). -/
def Control.capEn (c : Control) : Bool := c.ctrl.getLsbD 8

/-- FEC_RES as a 32-bit register (10_state.md R44). -/
def FecRes.word (r : FecRes) : Word :=
  0#20 ++ r.nflip ++ r.code ++ BitVec.ofBool r.stub ++ BitVec.ofBool r.enc ++ BitVec.ofBool r.ok ++ BitVec.ofBool r.done

/-- TRL_RES as a 32-bit register (10_state.md R55). -/
def TrlRes.word (r : TrlRes) : Word :=
  0#10 ++ r.failStep ++ 0#2 ++ r.steps ++ 0#6 ++ BitVec.ofBool r.ok ++ BitVec.ofBool r.done

/-- SYNC_INFO as a 32-bit register (10_state.md R72). -/
def SyncInfo.word (r : SyncInfo) : Word :=
  r.mism ++ r.entry ++ 0#5 ++ r.rate ++ r.var ++ r.stn ++ BitVec.ofBool r.epol ++ r.proto ++ BitVec.ofBool r.valid

/-- STAT as a 32-bit register (10_state.md R77). -/
def DilUnit.statWord (u : DilUnit) : Word := u.statCnt ++ 0#6 ++ u.statDibit

/-- ID (10_state.md R33). -/
def idWord : Word := 0x44534301

/-- PERM_PRESENT: bit s set when L_s > 0 (10_state.md R34). -/
def permPresent (cfg : Cfg) : BitVec 8 :=
  (List.range 8).foldr (fun s v => if cfg.slotPresent s then v ||| BitVec.twoPow 8 s else v) 0

/-- PARAM0 (10_state.md R34). -/
def param0 (cfg : Cfg) : Word :=
  0#8 ++ permPresent cfg ++ BitVec.ofNat 8 cfg.syncTable.length ++ 0#1 ++ BitVec.ofNat 7 cfg.nW

end Sys2Proof.Machine
end

