-- ==== Sys2Proof/Machine/Ops.lean ====
section
/-! DEFINITION. The named operations over the state: one update per part of the state, the error record that stands in
the place of taking an exception (60_exceptions.md R320, R321, R333), events, the return to search, and free values. -/

namespace Sys2Proof.Machine

/-- Replace the global control part. -/
def State.setCtl (s : State) (x : Control) : State := { s with ctl := x }

/-- Replace the block FEC unit. -/
def State.setFec (s : State) (x : FecUnit) : State := { s with fec := x }

/-- Replace the Viterbi unit. -/
def State.setVit (s : State) (x : VitUnit) : State := { s with vit := x }

/-- Replace the trellis unit. -/
def State.setTrl (s : State) (x : TrlUnit) : State := { s with trl := x }

/-- Replace the sync unit. -/
def State.setSync (s : State) (x : SyncUnit) : State := { s with sync := x }

/-- Replace the deinterleave unit. -/
def State.setDil (s : State) (x : DilUnit) : State := { s with dil := x }

/-- Replace the record of the elements that hold no value yet (10_state.md R62). -/
def State.setUnwritten (s : State) (x : Buffers) : State := { s with unwritten := x }

/-- Set the level of RST_N. -/
def State.setRstN (s : State) (x : Bool) : State := { s with rstN := x }

/-- Replace the queue of host inputs. -/
def State.setPending (s : State) (x : List HostInput) : State := { s with pending := x }

/-- Set the word the host's last read returned. -/
def State.setRdata (s : State) (x : Word) : State := { s with rdata := x }

/-- Set the count of free values taken. -/
def State.setDraws (s : State) (x : Nat) : State := { s with draws := x }

/-- The error record of 60_exceptions.md R321: the STATUS bit of ERR_X, ERRCODE and ERRINFO. DSDCC-FSA has no exception
entry and no return from one (R320, R333); an error is this record and nothing else. `raise` is this operation as the
whole of a command's effect, `record` is this operation with the command's other effects beside it (00_scope.md R14). -/
def State.recordError (s : State) (e : ErrKind) (errInfo : Word) : State :=
  s.setCtl { s.ctl with
    sticky := s.ctl.sticky ||| BitVec.twoPow 32 e.bit
    errCode := e.code
    errInfo := errInfo }

/-- `event EV_X` (60_exceptions.md R327): "sets the sticky STATUS bit of EV_X and changes nothing else". -/
def State.signal (s : State) (e : Event) : State :=
  s.setCtl { s.ctl with sticky := s.ctl.sticky ||| BitVec.twoPow 32 e.bit }

/-- Signal the event when the condition holds. -/
def State.signalIf (s : State) (cond : Bool) (e : Event) : State := if cond then s.signal e else s

/-- RES, INFO and SYN hold values: every FEC command writes them whole (10_state.md R41 to R43, R62). -/
def State.markFec (s : State) : State := s.setUnwritten { s.unwritten with res := 0, info := 0, syn := 0 }

/-- The element of the buffer holds no value (10_state.md R62). -/
def Buffers.lacks (u : Buffers) : OperandBuffer → Nat → Bool
  | .opd, k => u.opd.getLsbD k
  | .dec, k => u.dec.getD k 0 != 0
  | .cin, k => u.cin.getLsbD k
  | .tin, k => u.tin.getD k 0 != 0
  | .din, k => u.din.getD k 0 != 0

/-- A command that reads the listed elements of a buffer and leads to the state t: the model fault UNWRITTEN when one of
them holds no value, naming the command and the first such element (10_state.md R62; U1 of 93_implementation_defined.md;
log 18). -/
def State.reading (s : State) (command : Instr) (buffer : OperandBuffer) (elements : List Nat) (t : State) :
    Host.Outcome State Fault Refusal :=
  match elements.find? (s.unwritten.lacks buffer) with
  | some k => .fault (.unwritten command buffer k)
  | none => .next t

/-- The vector with its n low bits 0. -/
def clearBelow {w : Nat} (v : BitVec w) (n : Nat) : BitVec w := (v >>> n) <<< n

/-- The buffer with its first m elements 0. -/
def clearFirst {w n : Nat} (v : Vector (BitVec w) n) (m : Nat) : Vector (BitVec w) n :=
  Vector.ofFn (fun i : Fin n => if i.val < m then 0 else v.getD i.val 0)

/-- clear_call(), the per-call clear (43_sync.md R243). -/
def SyncUnit.clearCall (u : SyncUnit) : SyncUnit :=
  { u with
    info := SyncInfo.zero
    pol := false
    nxdnValid := false
    nxdnCnt := 0
    sqCnt := 0
    frameCnt := 0
    stEn := false }

/-- min(v + 1, 2^32 − 1), the step of a saturating counter (60_exceptions.md R337). -/
def satInc (v : Word) : Word := if v == BitVec.allOnes 32 then v else v + 1

/-- Take the next free value: the state with the count advanced (log 3, log 4, log 5). -/
def State.advanceDraws (s : State) : State := s.setDraws (s.draws + 1)

end Sys2Proof.Machine
end

