-- ==== Sys2Proof/Machine/Operands.lean ====
section
/-! DEFINITION. The operand forms: right-aligned vectors and their bus words (00_scope.md R12, 20_memory.md R83),
MSB-first stream bits (10_state.md R49), dibit buffers, and MSB-first packing (44_deinterleave.md R283). -/

namespace Sys2Proof.Machine

/-- The vector whose bit i (i < w) is f i. -/
def ofBits (w : Nat) (f : Nat → Bool) : BitVec w :=
  (List.range w).foldr (fun i v => if f i then v ||| BitVec.twoPow w i else v) 0

/-- The vector with bit i set to b; a bit outside the vector is not written. -/
def setBit {w : Nat} (v : BitVec w) (i : Nat) (b : Bool) : BitVec w :=
  if b then v ||| BitVec.twoPow w i else v &&& ~~~BitVec.twoPow w i

/-- The bus word j of a bit vector: "vector bit i is in the word at offset base + 4 × (i div 32), at bit i mod 32"
(20_memory.md R83). -/
def vecWord {w : Nat} (v : BitVec w) (j : Nat) : Word := slice 32 v (32 * j) 32

/-- The vector with its bus word j replaced. -/
def setVecWord {w : Nat} (v : BitVec w) (j : Nat) (x : Word) : BitVec w :=
  (v &&& ~~~((BitVec.allOnes 32).setWidth w <<< (32 * j))) ||| (x.setWidth w <<< (32 * j))

/-- The place in a bus word of the i-th stream bit of that word: byte lane i div 8, bit 7 − (i mod 8) of the lane
(10_state.md R49, 20_memory.md R83). The map is its own inverse. -/
def streamLane (i : Nat) : Nat := 8 * (i / 8) + (7 - i % 8)

/-- A bus word with its bits in stream order, or back: bit i of the result is bit streamLane i of the argument. -/
def streamSwap (x : Word) : Word := ofBits 32 (fun i => x.getLsbD (streamLane i))

/-- The bus word j of a stream buffer, whose stream bit b is bit b of the vector. -/
def streamWord {w : Nat} (v : BitVec w) (j : Nat) : Word := streamSwap (vecWord v j)

/-- The stream buffer with its bus word j replaced. -/
def setStreamWord {w : Nat} (v : BitVec w) (j : Nat) (x : Word) : BitVec w := setVecWord v j (streamSwap x)

/-- The bus word of four bytes, element 4j + l in lane l (20_memory.md R83). -/
def laneWord (f : Nat → Byte) (j : Nat) : Word := f (4 * j + 3) ++ f (4 * j + 2) ++ f (4 * j + 1) ++ f (4 * j)

/-- The bus word j of a byte buffer. -/
def byteWord {n : Nat} (b : Vector Byte n) (j : Nat) : Word := laneWord (fun i => b.getD i 0) j

/-- The bus word j of a dibit buffer: "one dibit per byte lane, in lane bits 1:0" (20_memory.md R88); the unused bits of
the lane return 0 (R84). -/
def dibitWord {n : Nat} (b : Vector Dibit n) (j : Nat) : Word := laneWord (fun i => (b.getD i 0).setWidth 8) j

/-- The dibit buffer with bus word j written: "stores bits 1:0 of the lane and ignores bits 7:2" (20_memory.md R88). -/
def setDibitWord {n : Nat} (b : Vector Dibit n) (j : Nat) (x : Word) : Vector Dibit n :=
  (List.range 4).foldl (fun acc l => acc.setIfInBounds (4 * j + l) (x.extractLsb' (8 * l) 2)) b

/-- The window readout vector: W[j] at bits 2j+1 : 2j, positions j ≥ N_W read 0 (20_memory.md R88). -/
def windowVec (window : List Dibit) : BitVec 128 :=
  ofBits 128 (fun i => (window.getD (i / 2) 0).getLsbD (i % 2))

/-- V of PACK: DIN[off .. off+cnt−1] concatenated, "first dibit most significant, high bit first" (44_deinterleave.md
R283). -/
def packDibits {n : Nat} (b : Vector Dibit n) (off cnt : Nat) : Vec :=
  (List.range cnt).foldl (fun v j => (v <<< 2) ||| (b.getD (off + j) 0).setWidth 256) 0

/-- CW = OPD[n−1:0], the codeword operand of FEC_DECODE (40_block_fec.md R145). -/
def codeword (c : Code) (opd : Vec) : Vec := slice 256 opd 0 c.n

/-- The information word CW[n−1:n−k] of a codeword, zero-extended to 128 bits (10_state.md R42). -/
def infoOf (c : Code) (cw : Vec) : BitVec 128 := slice 128 cw (c.n - c.k) c.k

end Sys2Proof.Machine
end

