-- ==== Sys2Proof/Machine/Bus.lean ====
section
/-! DEFINITION. The register map and the bus accesses other than a CMD write (20_memory.md R82 to R92). -/

namespace Sys2Proof.Machine

/-- The registers and buffer words of the register map (20_memory.md R88); an index is the s or w of the map. -/
inductive Reg where
  | id | ctrl | status | cmd | irqEn | sqThresh | errCode | errInfo | syncInfo | warmT | searchCnt
  | nxdnCnt | sqCnt | frameCnt | capPtr | stat | fecRes | trlRes | dp | vcnt | param0
  | pm (s : Nat) | opd (w : Nat) | res (w : Nat) | info (w : Nat) | syn (w : Nat) | win (w : Nat)
  | din (w : Nat) | tin (w : Nat) | tout (w : Nat) | tdib (w : Nat) | cin (w : Nat) | cout (w : Nat)
  | cenc (w : Nat) | dec (s : Nat)
deriving DecidableEq, Repr

/-- The single registers of the map and their offsets. -/
def scalarMap : List (Nat × Reg) :=
  [(0x0000, .id), (0x0004, .ctrl), (0x0008, .status), (0x000C, .cmd), (0x0010, .irqEn), (0x0014, .sqThresh),
   (0x0018, .errCode), (0x001C, .errInfo), (0x0020, .syncInfo), (0x0024, .warmT), (0x0028, .searchCnt)] ++
  [(0x002C, .nxdnCnt), (0x0030, .sqCnt), (0x0034, .frameCnt), (0x0038, .capPtr), (0x003C, .stat), (0x0040, .fecRes),
   (0x0044, .trlRes), (0x0048, .dp), (0x004C, .vcnt), (0x0050, .param0)]

/-- The buffers of the map: first offset, number of words, and the register of word w. -/
def arrayMap : List (Nat × Nat × (Nat → Reg)) :=
  [(0x0080, 16, .pm), (0x0100, 8, .opd), (0x0120, 8, .res), (0x0140, 4, .info), (0x0150, 2, .syn), (0x0160, 4, .win),
   (0x0200, 32, .din)] ++
  [(0x0280, 32, .tin), (0x0300, 4, .tout), (0x0340, 16, .tdib), (0x0400, 16, .cin), (0x0440, 16, .cout),
   (0x0480, 32, .cenc), (0x1000, 300, .dec)]

/-- The register at an aligned offset; none where the offset is reserved (20_memory.md R88). -/
def regAt (o : Nat) : Option Reg :=
  match scalarMap.find? (fun p => p.1 == o) with
  | some p => some p.2
  | none => (arrayMap.find? (fun a => decide (a.1 ≤ o ∧ o < a.1 + 4 * a.2.1))).map (fun a => a.2.2 ((o - a.1) / 4))

/-- The register an access reaches: none when the access is bad for its width, alignment or offset (20_memory.md R82,
R92). -/
def accessed (a : Offset) (width : AccessWidth) : Option Reg :=
  if width == .w32 && a.toNat % 4 == 0 then regAt a.toNat else none

/-- The registers a write may reach: those not marked RO (20_memory.md R88); STATUS is write-one-to-clear (R87). -/
def Reg.writable : Reg → Bool
  | .ctrl | .status | .cmd | .irqEn | .sqThresh | .capPtr | .opd _ | .din _ | .tin _ | .cin _ => true
  | .id | .errCode | .errInfo | .syncInfo | .warmT | .searchCnt | .nxdnCnt | .sqCnt | .frameCnt | .stat | .fecRes
  | .trlRes | .dp | .vcnt | .param0 | .pm _ | .res _ | .info _ | .syn _ | .win _ | .tout _ | .tdib _ | .cout _
  | .cenc _ | .dec _ => false

/-- The buffers the units hold. -/
def State.buffers (s : State) : Buffers where
  opd := s.fec.opd
  res := s.fec.res
  info := s.fec.info
  syn := s.fec.syn
  dec := s.vit.dec
  cin := s.vit.cin
  cout := s.vit.cout
  cenc := s.vit.cenc
  tin := s.trl.tin
  tdib := s.trl.tdib
  tout := s.trl.tout
  din := s.dil.din

/-- The bus word of a buffer register (20_memory.md R83, R88), 0 for a register that is no buffer of 10_state.md R61. -/
def bufferWord (b : Buffers) : Reg → Word
  | .opd w => vecWord b.opd w
  | .res w => vecWord b.res w
  | .info w => vecWord b.info w
  | .syn w => vecWord b.syn w
  | .din w => dibitWord b.din w
  | .tin w => dibitWord b.tin w
  | .tout w => byteWord b.tout w
  | .tdib w => dibitWord b.tdib w
  | .cin w => streamWord b.cin w
  | .cout w => streamWord b.cout w
  | .cenc w => streamWord b.cenc w
  | .dec i => (b.dec.getD i 0).setWidth 32
  | .id | .ctrl | .status | .cmd | .irqEn | .sqThresh | .errCode | .errInfo | .syncInfo | .warmT | .searchCnt
  | .nxdnCnt | .sqCnt | .frameCnt | .capPtr | .stat | .fecRes | .trlRes | .dp | .vcnt | .param0 | .pm _ | .win _ => 0

/-- The bits of a register's bus word that belong to elements nothing has written (10_state.md R62). -/
def unwrittenBits (s : State) (r : Reg) : Word := bufferWord s.unwritten r

/-- The word a read of a register gives (20_memory.md R84, R86, R88): reserved bits are 0, CMD reads 0. The bits of
unwritten elements are not read from here (busRead). -/
def readReg (s : State) : Reg → Word
  | .id => idWord
  | .ctrl => s.ctl.ctrl.setWidth 32
  | .status => s.statusWord
  | .cmd => 0
  | .irqEn => s.ctl.irqEn &&& stickyMask
  | .sqThresh => s.ctl.sqThresh
  | .errCode => s.ctl.errCode.setWidth 32
  | .errInfo => s.ctl.errInfo
  | .syncInfo => s.sync.info.word
  | .warmT => (BitVec.ofNat 5 s.sync.warmT).setWidth 32
  | .searchCnt => (BitVec.ofNat 11 s.sync.searchCnt).setWidth 32
  | .nxdnCnt => s.sync.nxdnCnt
  | .sqCnt => s.sync.sqCnt
  | .frameCnt => s.sync.frameCnt
  | .capPtr => (BitVec.ofNat 8 s.dil.capPtr).setWidth 32
  | .stat => s.dil.statWord
  | .fecRes => s.fec.fecRes.word
  | .trlRes => s.trl.trlRes.word
  | .dp => (BitVec.ofNat 9 s.vit.dp).setWidth 32
  | .vcnt => (BitVec.ofNat 7 s.sync.vcnt).setWidth 32
  | .param0 => param0 s.cfg
  | .pm i => (s.vit.pm.getD i 0).setWidth 32
  | .win w => vecWord (windowVec s.sync.window) w
  | .opd w => bufferWord s.buffers (.opd w)
  | .res w => bufferWord s.buffers (.res w)
  | .info w => bufferWord s.buffers (.info w)
  | .syn w => bufferWord s.buffers (.syn w)
  | .din w => bufferWord s.buffers (.din w)
  | .tin w => bufferWord s.buffers (.tin w)
  | .tout w => bufferWord s.buffers (.tout w)
  | .tdib w => bufferWord s.buffers (.tdib w)
  | .cin w => bufferWord s.buffers (.cin w)
  | .cout w => bufferWord s.buffers (.cout w)
  | .cenc w => bufferWord s.buffers (.cenc w)
  | .dec i => bufferWord s.buffers (.dec i)

/-- The state after a write of v to CAP_PTR (20_memory.md R89). -/
def writeCapPtr (s : State) (v : Word) : State :=
  if v.toNat ≤ 128 then s.setDil { s.dil with capPtr := v.toNat } else s.recordError .range v

/-- The state after a write of v to a register other than CMD (20_memory.md R85, R87, R88): RW registers and buffers are
replaced, their reserved bits ignore the value, STATUS clears the sticky bits written with 1;
the elements of a buffer word that is written hold values from then on (10_state.md R62). A register marked RO is
left as it is, and CMD too: its write is a command (Machine/HostPort.lean). -/
def writeReg (s : State) (v : Word) : Reg → State
  | .ctrl => s.setCtl { s.ctl with ctrl := v.setWidth 9 }
  | .status => s.setCtl { s.ctl with sticky := s.ctl.sticky &&& ~~~v }
  | .irqEn => s.setCtl { s.ctl with irqEn := v &&& stickyMask }
  | .sqThresh => s.setCtl { s.ctl with sqThresh := v }
  | .capPtr => writeCapPtr s v
  | .opd w => (s.setFec { s.fec with opd := setVecWord s.fec.opd w v }).setUnwritten
      { s.unwritten with opd := setVecWord s.unwritten.opd w 0 }
  | .din w => (s.setDil { s.dil with din := setDibitWord s.dil.din w v }).setUnwritten
      { s.unwritten with din := setDibitWord s.unwritten.din w 0 }
  | .tin w => (s.setTrl { s.trl with tin := setDibitWord s.trl.tin w v }).setUnwritten
      { s.unwritten with tin := setDibitWord s.unwritten.tin w 0 }
  | .cin w => (s.setVit { s.vit with cin := setStreamWord s.vit.cin w v }).setUnwritten
      { s.unwritten with cin := setStreamWord s.unwritten.cin w 0 }
  | .cmd | .id | .errCode | .errInfo | .syncInfo | .warmT | .searchCnt | .nxdnCnt | .sqCnt | .frameCnt | .stat | .fecRes
  | .trlRes | .dp | .vcnt | .param0 | .pm _ | .res _ | .info _ | .syn _ | .win _ | .tout _ | .tdib _ | .cout _
  | .cenc _ | .dec _ => s

/-- ERR_BUS with ERRINFO = the offset as presented (20_memory.md R92, 60_exceptions.md R326). -/
def badAccess (s : State) (a : Offset) : State := s.recordError .bus (a.setWidth 32)

/-- A good read of a register: the bits of written elements and of registers as they stand, and "draw() for the unwritten
elements of the word" (10_state.md R62): a fresh free value for each such read (log 3). -/
def readWord (s : State) (r : Reg) : State :=
  let free := unwrittenBits s r
  if free == 0 then s.setRdata (readReg s r)
  else (s.setRdata ((readReg s r &&& ~~~free) ||| (Config.drawWord s.draws &&& free))).advanceDraws

/-- MemRead (20_memory.md R84): the host gets the word in rdata (log 7); a bad read returns 0 and sets ERR_BUS. -/
def busRead (s : State) (a : Offset) (width : AccessWidth) : State :=
  match accessed a width with
  | some r => readWord s r
  | none => (badAccess s a).setRdata 0

/-- RST_N returns to 1: the power-on reset state of the same instance (70_reset_and_hazards.md R350, R351), with no
buffer element written and fresh opaque contents stored (log 8, log 18); what the host has still to send, and
what it last read, are kept. -/
def releaseReset (s : State) : State :=
  { State.powerOn s.cfg (Config.powerOn s.draws) with pending := s.pending, rdata := s.rdata, draws := s.draws + 1 }

end Sys2Proof.Machine
end

