-- ==== Sys2Proof/Machine/Deinterleave.lean ====
section
/-! DEFINITION. The deinterleave unit: the frame path, DEINT and PACK (44_deinterleave.md). -/

namespace Sys2Proof.Machine

/-- The capacity of DIN (10_state.md R78). -/
def dinSize : Nat := 128

/-- d' = d ⊕ (POL == 1 ? CFG.INV_MASK : 0) (44_deinterleave.md R288, R289). -/
def correctPolarity (cfg : Cfg) (pol : Bool) (d : Dibit) : Dibit := d ^^^ (if pol then cfg.invMask else 0)

/-- FRAME_CNT % 36 == 0, the status cadence (44_deinterleave.md R291; STATUS_CADENCE, 00_scope.md R7). -/
def isStatusTurn (frameCnt : Word) : Bool := frameCnt.toNat % 36 == 0

/-- The unit after a status dibit (44_deinterleave.md R288): STAT_DIBIT, and STAT_CNT modulo 2^24. -/
def DilUnit.divert (u : DilUnit) (d : Dibit) : DilUnit := { u with statDibit := d, statCnt := u.statCnt + 1 }

/-- The unit after a captured dibit (44_deinterleave.md R288, R290). -/
def DilUnit.capture (u : DilUnit) (d : Dibit) : DilUnit :=
  { u with din := u.din.setIfInBounds u.capPtr d, capPtr := u.capPtr + 1 }

/-- frame_dibit(d), run by PUSH_SYMBOL in FOUND and LOCKED (44_deinterleave.md R288); `v` is the PUSH_SYMBOL word. -/
def frameDibit (d : Dibit) (v : Word) (s : State) : State :=
  let d' := correctPolarity s.cfg s.sync.pol d
  let t := s.setSync { s.sync with frameCnt := s.sync.frameCnt + 1 }
  if t.sync.stEn && isStatusTurn t.sync.frameCnt then (t.setDil (t.dil.divert d')).signal .status
  else if t.ctl.capEn then
    if t.dil.capPtr < dinSize then
      (t.setDil (t.dil.capture d')).setUnwritten
        { t.unwritten with din := t.unwritten.din.setIfInBounds t.dil.capPtr 0 }
    else t.recordError .ovf v
  else t

/-- TIN after DEINT: TIN[i] is DIN[PERM_s[i]] for i < L_s, and unchanged above (44_deinterleave.md R282). -/
def gather (perm : List Nat) (din tin : Vector Dibit 128) : Vector Dibit 128 :=
  Vector.ofFn (fun i : Fin 128 => if i.val < perm.length then din.getD (perm.getD i 0) 0 else tin.getD i 0)

/-- The state after DEINT: an absent slot is an illegal field value (44_deinterleave.md R282; 30_encoding.md R118). -/
def deint (slot : BitVec 3) (s : State) : State :=
  if s.cfg.slotPresent slot.toNat then
    (s.setTrl { s.trl with tin := gather (s.cfg.permOf slot.toNat) s.dil.din s.trl.tin }).setUnwritten
      { s.unwritten with tin := clearFirst s.unwritten.tin (s.cfg.permOf slot.toNat).length }
  else s.recordError .illegal (encode (.deint slot))

/-- DEINT slot (44_deinterleave.md R282), reading DIN[PERM_s[i]] for i < L_s; an absent slot reads nothing. -/
def execDeint (slot : BitVec 3) (s : State) : Host.Outcome State Fault Refusal :=
  s.reading (.deint slot) .din (s.cfg.permOf slot.toNat) (deint slot s)

/-- The range check of PACK: CNT == 0 or OFF + CNT > 128 (44_deinterleave.md R283). -/
def packOutOfRange (off cnt : BitVec 7) : Bool := cnt == 0 || decide (dinSize < off.toNat + cnt.toNat)

/-- The state after PACK (44_deinterleave.md R283, R284). -/
def pack (off cnt : BitVec 7) (shr : BitVec 4) (s : State) : State :=
  if packOutOfRange off cnt then s.recordError .range (encode (.pack off cnt shr))
  else
    (s.setFec { s.fec with opd := packDibits s.dil.din off.toNat cnt.toNat >>> shr.toNat }).setUnwritten
      { s.unwritten with opd := 0 }

/-- PACK off, cnt, shr (44_deinterleave.md R283), reading "DIN[OFF .. OFF+CNT−1] only" (R284 (e)). -/
def execPack (off cnt : BitVec 7) (shr : BitVec 4) (s : State) : Host.Outcome State Fault Refusal :=
  s.reading (.pack off cnt shr) .din (if packOutOfRange off cnt then [] else List.range' off.toNat cnt.toNat)
    (pack off cnt shr s)

end Sys2Proof.Machine
end

