-- ==== Sys2Proof/Machine/Fec.lean ====
section
/-! DEFINITION. The block FEC unit: syndrome tables, FEC_DECODE and FEC_ENCODE (40_block_fec.md). -/

namespace Sys2Proof.Machine

/-- The sublists of w elements of a list, in lexicographic order of position: for an ascending list of bit indices, the
tuples (b_1 < … < b_w) of 40_block_fec.md R143 in their order. -/
def choose : Nat → List Nat → List (List Nat)
  | 0, _ => [[]]
  | _ + 1, [] => []
  | w + 1, b :: bs => (choose w bs).map (b :: ·) ++ choose (w + 1) bs

/-- The word E with exactly the given bits set (40_block_fec.md R143). -/
def errorWord (bs : List Nat) : Vec := bs.foldr (fun b e => BitVec.twoPow 256 b ||| e) 0

/-- The error patterns in the order they enter the table: w = 1, 2, …, t, and within a weight lexicographic. -/
def errorPatterns (n t : Nat) : List (List Nat) := (List.range' 1 t).flatMap (fun w => choose w (List.range n))

/-- One step of building the table (40_block_fec.md R143), seen at the one syndrome s ≠ 0: a pattern of another syndrome
leaves the entry, "a lower-weight pattern is kept", "an equal-weight pattern overwrites". -/
def tableStep (cfg : Cfg) (c : Code) (s : BitVec 64) (entry : Option Vec) (bs : List Nat) : Option Vec :=
  if cfg.syndrome c (errorWord bs) == s then
    match entry with
    | none => some (errorWord bs)
    | some e => if popcount e < bs.length then some e else some (errorWord bs)
  else entry

/-- T_c[s], the entry of the syndrome table of a code at s (40_block_fec.md R143); patterns with s = 0 are skipped. -/
def syndromeTable (cfg : Cfg) (c : Code) (s : BitVec 64) : Option Vec :=
  if s == 0 then none else (errorPatterns c.n (cfg.depth c)).foldl (tableStep cfg c s) none

/-- E and ok of 40_block_fec.md R145: the error word to flip, or none when the word is uncorrectable (R146). -/
def correction (cfg : Cfg) (c : Code) (s : BitVec 64) : Option Vec :=
  if s == 0 then some 0 else syndromeTable cfg c s

/-- The unit after a FEC_DECODE of a code with a table (40_block_fec.md R145, R146). -/
def tableDecode (cfg : Cfg) (c : Code) (u : FecUnit) : FecUnit :=
  let cw := codeword c u.opd
  let e := correction cfg c (cfg.syndrome c cw)
  let out := cw ^^^ e.getD 0
  { u with
    res := out
    info := infoOf c out
    syn := cfg.syndrome c cw
    fecRes := { done := true, ok := e.isSome, enc := false, stub := c == .gol24128, code := c.num,
                nflip := BitVec.ofNat 4 (popcount (e.getD 0)) } }

/-- The unit after a FEC_DECODE of BCH_63_16 or RS_24_12 (40_block_fec.md R155, R156), with SYN the given draw(). -/
def stubDecode (c : Code) (draw : BitVec 64) (u : FecUnit) : FecUnit :=
  let cw := codeword c u.opd
  { u with
    res := cw
    info := infoOf c cw
    syn := draw
    fecRes := { done := true, ok := true, enc := false, stub := true, code := c.num, nflip := 0 } }

/-- The state after FEC_DECODE: a code with a table signals EV_FEC_FAIL when uncorrectable (40_block_fec.md R145, R146),
a stub takes a free value and signals nothing (R155, R156). -/
def fecDecode (c : Code) (s : State) : State :=
  if c.hasTable then
    let u := tableDecode s.cfg c s.fec
    (s.setFec u).markFec.signalIf (!u.fecRes.ok) .fecFail
  else (s.setFec (stubDecode c (Config.drawSyn s.draws) s.fec)).markFec.advanceDraws

/-- FEC_DECODE code (40_block_fec.md R145), reading OPD[n−1:0] (R147 (f), R155, R156). -/
def execFecDecode (c : Code) (s : State) : Host.Outcome State Fault Refusal :=
  s.reading (.fecDecode c) .opd (List.range c.n) (fecDecode c s)

/-- The unit after FEC_ENCODE (40_block_fec.md R150). -/
def encodeUnit (cfg : Cfg) (c : Code) (u : FecUnit) : FecUnit :=
  { u with
    res := cfg.encodeWord c u.opd
    info := slice 128 u.opd 0 c.k
    syn := 0
    fecRes := { done := true, ok := true, enc := true, stub := false, code := c.num, nflip := 0 } }

/-- The state after FEC_ENCODE; RS_24_12 "has no encoder" and is an illegal field value (40_block_fec.md R150;
30_encoding.md R118, R125). -/
def fecEncode (c : Code) (s : State) : State :=
  if c == .rs2412 then s.recordError .illegal (encode (.fecEncode c))
  else (s.setFec (encodeUnit s.cfg c s.fec)).markFec

/-- FEC_ENCODE code (40_block_fec.md R150), reading OPD[k−1:0]; the illegal RS_24_12 reads nothing. -/
def execFecEncode (c : Code) (s : State) : Host.Outcome State Fault Refusal :=
  s.reading (.fecEncode c) .opd (if c == .rs2412 then [] else List.range c.k) (fecEncode c s)

end Sys2Proof.Machine
end

