-- ==== Sys2Proof/Machine/Sync.lean ====
section
/-! DEFINITION. The sync unit: PUSH_SYMBOL, PUSH_SAMPLE, RESYNC and SYNC_RESET (43_sync.md). -/

namespace Sys2Proof.Machine

/-- WARMUP (00_scope.md R7). -/
def warmUp : Nat := 18

/-- NOSYNC_LIMIT (00_scope.md R7). -/
def nosyncLimit : Nat := 1800

/-- NXDN_PERIOD (00_scope.md R7). -/
def nxdnPeriod : Nat := 192

/-- The protocol index of NXDN (00_scope.md R7). -/
def nxdnProto : BitVec 3 := 5

/-- The window update (43_sync.md R233). -/
def SyncUnit.shiftWindow (nW : Nat) (u : SyncUnit) (d : Dibit) : SyncUnit :=
  { u with window := (d :: u.window).take nW, vcnt := min (u.vcnt + 1) nW }

/-- The NXDN symbol count of 43_sync.md R236, R239: counted while NXDN_VALID = 1. -/
def SyncUnit.countNxdn (u : SyncUnit) : SyncUnit := { u with nxdnCnt := if u.nxdnValid then satInc u.nxdnCnt else u.nxdnCnt }

/-- The warm-up count (43_sync.md R235). -/
def SyncUnit.countWarm (u : SyncUnit) : SyncUnit := { u with warmT := if u.warm then u.warmT + 1 else u.warmT }

/-- mism(e): the positions j < L with j ≥ VCNT or W[j] ≠ e.pat[L−1−j] (43_sync.md R234). -/
def mismatches (window : List Dibit) (vcnt : Nat) (pat : List Dibit) : Nat :=
  (List.range pat.length).countP
    (fun j => decide (vcnt ≤ j) || window.getD j 0 != pat.getD (pat.length - 1 - j) 0)

/-- mism(e) in a unit's window. -/
def SyncUnit.mism (u : SyncUnit) (e : SyncEntry) : Nat := mismatches u.window u.vcnt e.pat

/-- The gate of a short sync: NXDN_VALID = 1, NXDN_CNT > 0, NXDN_CNT % 192 = 0 (43_sync.md R237, R239). -/
def SyncUnit.shortGate (u : SyncUnit) : Bool :=
  u.nxdnValid && decide (0 < u.nxdnCnt.toNat) && u.nxdnCnt.toNat % nxdnPeriod == 0

/-- "treat as a non-match and reset the counter" (43_sync.md R237). -/
def SyncUnit.resetNxdn (u : SyncUnit) : SyncUnit := { u with nxdnCnt := 0, nxdnValid := false }

/-- scan() over the entries from index idx on (43_sync.md R237): the unit, whose NXDN count a gated-out short sync
resets, and the accepted entry with its index and mismatch count. -/
def scan (ctl : Control) : List SyncEntry → Nat → SyncUnit → SyncUnit × Option (Nat × SyncEntry × Nat)
  | [], _, u => (u, none)
  | e :: rest, idx, u =>
    if !ctl.en e.proto then scan ctl rest (idx + 1) u
    else if e.tol < u.mism e then scan ctl rest (idx + 1) u
    else if e.short && !u.shortGate then scan ctl rest (idx + 1) u.resetNxdn
    else (u, some (idx, e, u.mism e))

/-- The sync unit after declare(idx, e, m) (43_sync.md R238). -/
def SyncUnit.declare (u : SyncUnit) (idx : Nat) (e : SyncEntry) (m : Nat) : SyncUnit :=
  let long := e.proto == nxdnProto && !e.short
  { u with
    info := { valid := true, proto := e.proto, epol := e.pol, stn := e.stn, var := e.var, rate := e.rate,
              entry := BitVec.ofNat 8 idx, mism := BitVec.ofNat 8 m }
    pol := e.pol
    state := .found
    searchCnt := 0
    sqCnt := 0
    frameCnt := BitVec.ofNat 32 e.statusPhase
    stEn := e.statusEn
    nxdnCnt := if long then 0 else u.nxdnCnt
    nxdnValid := long || u.nxdnValid }

/-- declare(idx, e, m): the sync unit, CAP_PTR <- 0 and EV_SYNC (43_sync.md R238). -/
def declareSync (s : State) (idx : Nat) (e : SyncEntry) (m : Nat) : State :=
  ((s.setSync (s.sync.declare idx e m)).setDil { s.dil with capPtr := 0 }).signal .sync

/-- no_match() (43_sync.md R240, R241). -/
def noMatch (s : State) : State :=
  if s.sync.searchCnt + 1 == nosyncLimit then
    (s.setSync { s.sync.clearCall with searchCnt := 0 }).signal .nosync
  else s.setSync { s.sync with searchCnt := s.sync.searchCnt + 1 }

/-- The LOOK action of PUSH_SYMBOL (43_sync.md R236): no match test on a warm-up symbol. -/
def lookSymbol (warm : Bool) (s : State) : State :=
  if warm then noMatch s
  else
    let r := scan s.ctl s.cfg.syncTable 0 s.sync
    match r.2 with
    | some (idx, e, m) => declareSync (s.setSync r.1) idx e m
    | none => noMatch (s.setSync r.1)

/-- The state after PUSH_SYMBOL, in the order of 43_sync.md R236: window, NXDN count, warm-up, then the state's action. -/
def pushSymbol (d : Dibit) (s : State) : State :=
  let warm := s.sync.warm
  let t := s.setSync ((s.sync.shiftWindow s.cfg.nW d).countNxdn.countWarm)
  match s.sync.state with
  | .look => lookSymbol warm t
  | .found => frameDibit d (encode (.pushSymbol d)) (t.setSync { t.sync with state := .locked })
  | .locked => frameDibit d (encode (.pushSymbol d)) t

/-- PUSH_SYMBOL d (43_sync.md R236). -/
def execPushSymbol (d : Dibit) (s : State) : Host.Outcome State Fault Refusal := .next (pushSymbol d s)

/-- The return to search: SYNC_STATE <- LOOK, SEARCH_CNT <- 0 (43_sync.md R246, R248). -/
def SyncUnit.toLook (u : SyncUnit) : SyncUnit := { u with state := .look, searchCnt := 0 }

/-- SQ_THRESH != 0 and SQ_CNT ≥ SQ_THRESH (43_sync.md R246). -/
def squelchFires (thresh cnt : Word) : Bool := thresh != 0 && decide (thresh.toNat ≤ cnt.toNat)

/-- The state after PUSH_SAMPLE: the squelch timeout (43_sync.md R246). -/
def pushSample (v : BitVec 16) (s : State) : State :=
  if s.sync.state == .look || v != 0 then s.setSync { s.sync with sqCnt := 0 }
  else
    let cnt := satInc s.sync.sqCnt
    if squelchFires s.ctl.sqThresh cnt then (s.setSync s.sync.toLook.clearCall).signal .squelch
    else s.setSync { s.sync with sqCnt := cnt }

/-- PUSH_SAMPLE v (43_sync.md R246). -/
def execPushSample (v : BitVec 16) (s : State) : Host.Outcome State Fault Refusal := .next (pushSample v s)

/-- The sync unit after RESYNC (43_sync.md R248). -/
def SyncUnit.resync (u : SyncUnit) (abort : Bool) : SyncUnit :=
  let v := { u.toLook with sqCnt := 0, frameCnt := 0, pol := false, stEn := false }
  if abort then v.clearCall else v

/-- RESYNC abort (43_sync.md R248). -/
def execResync (abort : Bool) (s : State) : Host.Outcome State Fault Refusal :=
  .next (s.setSync (s.sync.resync abort))

/-- The state after SYNC_RESET (43_sync.md R250). -/
def syncReset (s : State) : State :=
  (s.setSync (SyncUnit.reset s.cfg)).setDil { s.dil with capPtr := 0, statDibit := 0, statCnt := 0 }

/-- SYNC_RESET (43_sync.md R250). -/
def execSyncReset (s : State) : Host.Outcome State Fault Refusal := .next (syncReset s)

end Sys2Proof.Machine
end

