-- ==== Sys2Proof/Machine/System.lean ====
section
/-! DEFINITION. The system commands NOP and SOFT_RESET (45_system.md). -/

namespace Sys2Proof.Machine

/-- NOP: "Pseudocode: nothing" (45_system.md R310). -/
def execNop (s : State) : Host.Outcome State Fault Refusal := .next s

/-- The state after SOFT_RESET (45_system.md R311): every element with a reset value returns to it, but CTRL, IRQ_EN,
SQ_THRESH and the buffers are kept. -/
def softReset (s : State) : State :=
  { s with
    ctl := { s.ctl with sticky := 0, errCode := 0, errInfo := 0 }
    fec := { s.fec with fecRes := FecRes.zero }
    vit := { s.vit with pm := Vector.replicate 16 0, dp := 0 }
    trl := { s.trl with trlRes := TrlRes.zero }
    sync := SyncUnit.reset s.cfg
    dil := { s.dil with capPtr := 0, statDibit := 0, statCnt := 0 } }

/-- SOFT_RESET (45_system.md R311). -/
def execSoftReset (s : State) : Host.Outcome State Fault Refusal := .next (softReset s)

end Sys2Proof.Machine
end

