-- ==== Sys2Proof/Machine/Trellis.lean ====
section
/-! DEFINITION. The trellis unit: TRELLIS12 (42_trellis.md). -/

namespace Sys2Proof.Machine

/-- cw = TIN[2i] << 2 | TIN[2i+1], "first dibit high" (42_trellis.md R211). -/
def trellisCodeword (tin : Vector Dibit 128) (i : Nat) : BitVec 4 := tin.getD (2 * i) 0 ++ tin.getD (2 * i + 1) 0

/-- hd[j], the Hamming distance of the received codeword to the codeword of next state j (42_trellis.md R211). -/
def trellisDistance (cfg : Cfg) (state : Dibit) (cw : BitVec 4) (j : Dibit) : Nat :=
  popcount (cw ^^^ (cfg.trellisNext.getD state.toNat (Vector.replicate 4 0)).getD j.toNat 0)

/-- The four next states. -/
def nextStates : List Dibit := [0, 1, 2, 3]

/-- The next states at the minimum distance mn (42_trellis.md R211). -/
def nearestStates (cfg : Cfg) (state : Dibit) (cw : BitVec 4) : List Dibit :=
  let hd := trellisDistance cfg state cw
  nextStates.filter (fun j => nextStates.all (fun j' => decide (hd j ≤ hd j')))

/-- The state a step goes to; none for a tie, "hd[j] == mn for more than one j" (42_trellis.md R211). -/
def trellisNext (cfg : Cfg) (state : Dibit) (cw : BitVec 4) : Option Dibit :=
  match nearestStates cfg state cw with
  | [j] => some j
  | _ => none

/-- The 49 steps of TRELLIS12 from step i in a state (42_trellis.md R211): TDIB, and the step of the tie if there is one. -/
def trellisLoop (cfg : Cfg) (tin : Vector Dibit 128) : Nat → Nat → Dibit → Vector Dibit 64 → Vector Dibit 64 × Option Nat
  | 0, _, _, tdib => (tdib, none)
  | left + 1, i, state, tdib =>
    match trellisNext cfg state (trellisCodeword tin i) with
    | none => (tdib, some i)
    | some j => trellisLoop cfg tin left (i + 1) j (tdib.setIfInBounds i j)

/-- TOUT[b] = TDIB[4b] << 6 | TDIB[4b+1] << 4 | TDIB[4b+2] << 2 | TDIB[4b+3] (42_trellis.md R211). -/
def trellisByte (tdib : Vector Dibit 64) (b : Nat) : Byte :=
  tdib.getD (4 * b) 0 ++ tdib.getD (4 * b + 1) 0 ++ tdib.getD (4 * b + 2) 0 ++ tdib.getD (4 * b + 3) 0

/-- The twelve bytes of a decoded block; "TOUT[12..15] always read 0" (10_state.md R54). -/
def trellisBytes (tdib : Vector Dibit 64) : Vector Byte 16 :=
  Vector.ofFn (fun b : Fin 16 => if b.val < 12 then trellisByte tdib b else 0)

/-- The state after TRELLIS12: on a tie TOUT is unchanged and EV_TRL_FAIL is signalled (42_trellis.md R211, R212). -/
def trellis12 (s : State) : State :=
  let r := trellisLoop s.cfg s.trl.tin 49 0 0 s.trl.tdib
  let u : TrlUnit :=
    { s.trl with
      tdib := r.1
      tout := if r.2.isSome then s.trl.tout else trellisBytes r.1
      trlRes :=
        { done := true
          ok := r.2.isNone
          steps := BitVec.ofNat 6 (r.2.getD 49)
          failStep := BitVec.ofNat 6 (r.2.getD 63) } }
  let w : Buffers :=
    { s.unwritten with
      tdib := clearFirst s.unwritten.tdib (r.2.getD 49)
      tout := if r.2.isSome then s.unwritten.tout else Vector.replicate 16 0 }
  ((s.setTrl u).setUnwritten w).signalIf r.2.isSome .trlFail

/-- TRELLIS12 (42_trellis.md R211). Its operands are TIN[0..97], each of which is an unwritten read when it holds no value,
also behind a tie (R213 (e); log 18). -/
def execTrellis12 (s : State) : Host.Outcome State Fault Refusal := s.reading .trellis12 .tin (List.range 98) (trellis12 s)

end Sys2Proof.Machine
end

