-- ==== Sys2Proof/Machine/Viterbi.lean ====
section
/-! DEFINITION. The Viterbi unit: CONV_START, CONV_STEP, CONV_CHAINBACK and CONV_ENCODE (41_viterbi.md). -/

namespace Sys2Proof.Machine

/-- DEC_CAP, the capacity of the decision memory in time steps (00_scope.md R7). -/
def decCap : Nat := 300

/-- CONV_START (41_viterbi.md R181). -/
def execConvStart (s : State) : Host.Outcome State Fault Refusal :=
  .next (s.setVit { s.vit with pm := Vector.replicate 16 0, dp := 0 })

/-- |a − b|, the integer absolute difference (41_viterbi.md R182). -/
def absDiff (a b : Nat) : Nat := (a - b) + (b - a)

/-- metric of butterfly i: (|BT1[i] − S0| + |BT2[i] − S1|) mod 2^16 (41_viterbi.md R182). -/
def branchMetric (cfg : Cfg) (s0 s1 : BitVec 8) (i : Nat) : BitVec 16 :=
  BitVec.ofNat 16 (absDiff (cfg.vitBt1.getD i 0).toNat s0.toNat + absDiff (cfg.vitBt2.getD i 0).toNat s1.toNat)

/-- The decision and the new metric of a state (41_viterbi.md R182): new state 2i takes `metric` on the edge from state i
and `M − metric` on the edge from state i + 8, new state 2i + 1 the other way round; "ties choosing the upper one". -/
def addCompareSelect (cfg : Cfg) (pm : Vector (BitVec 16) 16) (s0 s1 : BitVec 8) (state : Nat) : Bool × BitVec 16 :=
  let i := state / 2
  let metric := branchMetric cfg s0 s1 i
  let comp := cfg.vitM - metric
  let m0 := pm.getD i 0 + (if state % 2 == 0 then metric else comp)
  let m1 := pm.getD (i + 8) 0 + (if state % 2 == 0 then comp else metric)
  if m1 ≤ m0 then (true, m1) else (false, m0)

/-- The 16 decisions of a step in bits 15:0 of a 64-bit word (10_state.md R48, 41_viterbi.md R182). -/
def decisionWord (cfg : Cfg) (pm : Vector (BitVec 16) 16) (s0 s1 : BitVec 8) : BitVec 64 :=
  (ofBits 16 (fun state => (addCompareSelect cfg pm s0 s1 state).1)).setWidth 64

/-- The 16 new metrics, all from the old bank (10_state.md R46). -/
def newMetrics (cfg : Cfg) (pm : Vector (BitVec 16) 16) (s0 s1 : BitVec 8) : Vector (BitVec 16) 16 :=
  Vector.ofFn (fun state : Fin 16 => (addCompareSelect cfg pm s0 s1 state).2)

/-- The unit after an accepted CONV_STEP (41_viterbi.md R182). -/
def convStepUnit (cfg : Cfg) (s0 s1 : BitVec 8) (u : VitUnit) : VitUnit :=
  { u with
    pm := newMetrics cfg u.pm s0 s1
    dec := u.dec.setIfInBounds u.dp (decisionWord cfg u.pm s0 s1)
    dp := u.dp + 1 }

/-- The state after CONV_STEP: ERR_CAP with no other effect when DP = 300 (41_viterbi.md R183). -/
def convStep (s0 s1 : BitVec 8) (s : State) : State :=
  if decCap ≤ s.vit.dp then s.recordError .cap (encode (.convStep s0 s1))
  else
    (s.setVit (convStepUnit s.cfg s0 s1 s.vit)).setUnwritten
      { s.unwritten with dec := s.unwritten.dec.setIfInBounds s.vit.dp 0 }

/-- CONV_STEP s0, s1 (41_viterbi.md R182). -/
def execConvStep (s0 s1 : BitVec 8) (s : State) : Host.Outcome State Fault Refusal := .next (convStep s0 s1 s)

/-- The loop of CONV_CHAINBACK for r = n−1 down to 0 (41_viterbi.md R185): `dp` is DP before the turn, `state` the 8-bit
state register. The result is DP and COUT. -/
def chainback (dec : Vector (BitVec 64) 300) : Nat → Nat → BitVec 8 → BitVec 512 → Nat × BitVec 512
  | 0, dp, _, cout => (dp, cout)
  | r + 1, dp, state, cout =>
    let bit := (dec.getD (dp - 1) 0).getLsbD (state >>> 4).toNat
    chainback dec r (dp - 1) (BitVec.ofBool bit ++ state.extractLsb' 1 7) (setBit cout r bit)

/-- The state after CONV_CHAINBACK: ERR_RANGE with no other effect when n > DP (41_viterbi.md R185, R186). -/
def convChainback (nbits : BitVec 9) (s : State) : State :=
  if s.vit.dp < nbits.toNat then s.recordError .range (encode (.convChainback nbits))
  else
    let r := chainback s.vit.dec nbits.toNat s.vit.dp 0 s.vit.cout
    (s.setVit { s.vit with dp := r.1, cout := r.2 }).setUnwritten
      { s.unwritten with cout := clearBelow s.unwritten.cout nbits.toNat }

/-- CONV_CHAINBACK nbits (41_viterbi.md R185), reading DEC[DP−1] down to DEC[DP−n]. In a state that meets State.Inv these
hold values, "because n ≤ DP" (R186 (e)). -/
def execConvChainback (nbits : BitVec 9) (s : State) : Host.Outcome State Fault Refusal :=
  s.reading (.convChainback nbits) .dec
    (if s.vit.dp < nbits.toNat then [] else (List.range nbits.toNat).map (fun q => s.vit.dp - 1 - q)) (convChainback nbits s)

/-- popcount(regs & taps) mod 2 (41_viterbi.md R187). -/
def tapParity (taps regs : BitVec 5) : Bool := popcount (regs &&& taps) % 2 == 1

/-- The loop of CONV_ENCODE (41_viterbi.md R187): `b` the next input bit, `reg` the 4-bit shift register. -/
def convEncodeLoop (taps1 taps2 : BitVec 5) (cin : BitVec 512) : Nat → Nat → BitVec 4 → BitVec 1024 → BitVec 1024
  | 0, _, _, cenc => cenc
  | left + 1, b, reg, cenc =>
    let regs : BitVec 5 := reg ++ BitVec.ofBool (cin.getLsbD b)
    convEncodeLoop taps1 taps2 cin left (b + 1) (regs.setWidth 4)
      (setBit (setBit cenc (2 * b) (tapParity taps1 regs)) (2 * b + 1) (tapParity taps2 regs))

/-- The state after CONV_ENCODE: ERR_RANGE with no other effect when n > 300 (41_viterbi.md R187). -/
def convEncode (nbits : BitVec 9) (s : State) : State :=
  if decCap < nbits.toNat then s.recordError .range (encode (.convEncode nbits))
  else
    (s.setVit { s.vit with
      cenc := convEncodeLoop s.cfg.vitTaps1 s.cfg.vitTaps2 s.vit.cin nbits.toNat 0 0 s.vit.cenc }).setUnwritten
      { s.unwritten with cenc := clearBelow s.unwritten.cenc (2 * nbits.toNat) }

/-- CONV_ENCODE nbits (41_viterbi.md R187), reading CIN[0..n−1]. -/
def execConvEncode (nbits : BitVec 9) (s : State) : Host.Outcome State Fault Refusal :=
  s.reading (.convEncode nbits) .cin (if decCap < nbits.toNat then [] else List.range nbits.toNat) (convEncode nbits s)

end Sys2Proof.Machine
end

