-- ==== Sys2Proof/Machine/Dispatch.lean ====
section
/-! DEFINITION. exec: one arm per command, each the direct call of its meaning. -/

namespace Sys2Proof.Machine

def exec (i : Instr) (s : State) : Host.Outcome State Fault Refusal :=
  match i with
  | .nop => Sys2Proof.Machine.execNop s
  | .softReset => Sys2Proof.Machine.execSoftReset s
  | .fecDecode code => Sys2Proof.Machine.execFecDecode code s
  | .fecEncode code => Sys2Proof.Machine.execFecEncode code s
  | .convStart => Sys2Proof.Machine.execConvStart s
  | .convStep s0 s1 => Sys2Proof.Machine.execConvStep s0 s1 s
  | .convChainback nbits => Sys2Proof.Machine.execConvChainback nbits s
  | .convEncode nbits => Sys2Proof.Machine.execConvEncode nbits s
  | .trellis12 => Sys2Proof.Machine.execTrellis12 s
  | .pushSymbol d => Sys2Proof.Machine.execPushSymbol d s
  | .pushSample v => Sys2Proof.Machine.execPushSample v s
  | .resync abort => Sys2Proof.Machine.execResync abort s
  | .syncReset => Sys2Proof.Machine.execSyncReset s
  | .deint slot => Sys2Proof.Machine.execDeint slot s
  | .pack off cnt shr => Sys2Proof.Machine.execPack off cnt shr s

end Sys2Proof.Machine
end

