-- ==== Sys2Proof/Machine/HostPort.lean ====
section
/-! DEFINITION. What one host input does: issuing a command through CMD, the bus accesses, and RST_N
(20_memory.md R84 to R86, 70_reset_and_hazards.md R350). -/

namespace Sys2Proof.Machine

/-- A write of v to CMD "issues the command v" (20_memory.md R86): it is decoded in the order of 30_encoding.md R114; a
word that fails raises ERR_ILLEGAL(v) (60_exceptions.md R322), any other executes its command. -/
def issue (v : Word) (s : State) : Host.Outcome State Fault Refusal :=
  match decode v with
  | .ok i => exec i s
  | .error _ => .next (s.recordError .illegal v)

/-- MemWrite (20_memory.md R85): a bad access or a write to a register marked RO sets ERR_BUS and changes nothing else. -/
def busWrite (s : State) (a : Offset) (width : AccessWidth) (v : Word) : Host.Outcome State Fault Refusal :=
  match accessed a width with
  | some .cmd => issue v s
  | some r => .next (if r.writable then writeReg s v r else badAccess s a)
  | none => .next (badAccess s a)

/-- One host input, given with the queue already moved on. While RST_N is 0 "the block ignores bus accesses (a read
returns 0)" (70_reset_and_hazards.md R350); driving RST_N to the level it has changes nothing (log 8). -/
def hostInput (x : HostInput) (s : State) : Host.Outcome State Fault Refusal :=
  match x with
  | .read a width => .next (if s.rstN then busRead s a width else s.setRdata 0)
  | .write a width v => if s.rstN then busWrite s a width v else .next s
  | .resetLow => .next (s.setRstN false)
  | .resetHigh => .next (if s.rstN then s else releaseReset s)

/-- One step: the oldest waiting host input takes effect, one at a time and in order (20_memory.md R95); with none
waiting the block is idle "with all state held" (60_exceptions.md R341; 70_reset_and_hazards.md R365). -/
def stepInput (s : State) : Host.Outcome State Fault Refusal :=
  match s.pending with
  | [] => .next s
  | x :: rest => hostInput x (s.setPending rest)

/-- The offset of CMD (20_memory.md R86). -/
def cmdOffset : Offset := 0x000C

/-- The host's write of a command word to CMD (30_encoding.md R127). -/
def cmdWrite (v : Word) : HostInput := .write cmdOffset .w32 v

/-- The state in which the next step issues the command v: the CMD write stands first in the queue and RST_N is 1. -/
def loadCommand (s : State) (v : Word) : State := (s.setPending (cmdWrite v :: s.pending)).setRstN true

end Sys2Proof.Machine
end

