-- ==== Sys2Proof/Machine/Step.lean ====
section
/-! DEFINITION. The step function, and how a command word comes to be the next one a step runs. -/

namespace Sys2Proof.Machine

/-- One step of the machine: one host input (Machine/HostPort.lean). -/
def step (s : State) : Host.Outcome State Fault Refusal := stepInput s

/-- The state whose very next step issues the command word w of nbits bits (the bits above them 0): DSDCC-FSA fetches
nothing, so the word stands as the oldest CMD write of the host's queue (log 6). -/
def State.withFetchWord (s : State) (nbits w : Nat) : State := loadCommand s (BitVec.ofNat 32 (w % 2 ^ nbits))

end Sys2Proof.Machine
end

