-- ==== Sys2Proof/Safety.lean ====
section
/-! DEFINITION. The terms claims are made in: the invariant of an instance's states, and what a step may report. -/

namespace Sys2Proof.Machine

/-- The ranges and relations every state of a running instance has. No command, access or reset breaks one of them. -/
structure State.Inv (s : State) : Prop where
  /-- the configuration meets its constraints (00_scope.md R9) -/
  cfgValid : s.cfg.wf = true
  /-- STATUS bits outside 20:8, and 15:14, are never set (10_state.md R36) -/
  stickyBits : s.ctl.sticky &&& ~~~stickyMask = 0
  /-- IRQ_EN bits outside 20:8, and 15:14, are never set (10_state.md R37) -/
  irqEnBits : s.ctl.irqEn &&& ~~~stickyMask = 0
  /-- ERRCODE is 0 to 5 (10_state.md R39) -/
  errCodeLe : s.ctl.errCode.toNat ≤ 5
  /-- FEC_RES.CODE is a code number (10_state.md R44) -/
  fecCodeLe : s.fec.fecRes.code.toNat ≤ 11
  /-- FEC_RES.NFLIP is 0 to 3 (10_state.md R44) -/
  nflipLe : s.fec.fecRes.nflip.toNat ≤ 3
  /-- DP is 0 to 300 (10_state.md R47) -/
  dpLe : s.vit.dp ≤ 300
  /-- DEC bits 63:16 are 0 (10_state.md R48) -/
  decHigh : ∀ j, (s.vit.dec.getD j 0).toNat < 2 ^ 16
  /-- TDIB[49..63] are 0 (10_state.md R53) -/
  tdibTail : ∀ j, 49 ≤ j → s.trl.tdib.getD j 0 = 0
  /-- TOUT[12..15] are 0 (10_state.md R54) -/
  toutTail : ∀ j, 12 ≤ j → s.trl.tout.getD j 0 = 0
  /-- TRL_RES.STEPS is 0 to 49 (10_state.md R55) -/
  stepsLe : s.trl.trlRes.steps.toNat ≤ 49
  /-- the window holds N_W dibits (10_state.md R56) -/
  windowLength : s.sync.window.length = s.cfg.nW
  /-- VCNT is 0 to N_W (10_state.md R57) -/
  vcntLe : s.sync.vcnt ≤ s.cfg.nW
  /-- WARM_T counts the same symbols as VCNT, saturating at 18 (10_state.md R57, R67) -/
  warmIsVcnt : s.sync.warmT = min s.sync.vcnt 18
  /-- SEARCH_CNT is 0 to 1799 (10_state.md R68) -/
  searchLt : s.sync.searchCnt < 1800
  /-- SEARCH_CNT does not count outside LOOK (43_sync.md R238, R242) -/
  searchLook : s.sync.state ≠ .look → s.sync.searchCnt = 0
  /-- "no sync can be declared before 18 symbols" after a reset (70_reset_and_hazards.md R353) -/
  frameWarm : s.sync.state ≠ .look → s.sync.warmT = 18
  /-- NXDN_CNT is 0 while NXDN_VALID = 0 (43_sync.md R237, R239, R243) -/
  nxdnClear : s.sync.nxdnValid = false → s.sync.nxdnCnt = 0
  /-- in LOOK no frame's polarity, status exclusion, frame count or squelch count is left (43_sync.md R243, R248) -/
  lookClear : s.sync.state = .look →
    s.sync.pol = false ∧ s.sync.stEn = false ∧ s.sync.frameCnt = 0 ∧ s.sync.sqCnt = 0
  /-- in FOUND and LOCKED SYNC_INFO describes the declared sync, and POL is its polarity (43_sync.md R238) -/
  frameInfo : s.sync.state ≠ .look → s.sync.info.valid = true ∧ s.sync.pol = s.sync.info.epol
  /-- SYNC_INFO is 0 unless VALID (10_state.md R72; 43_sync.md R243) -/
  infoZero : s.sync.info.valid = false → s.sync.info = SyncInfo.zero
  /-- CAP_PTR is 0 to 128 (10_state.md R79) -/
  capPtrLe : s.dil.capPtr ≤ 128
  /-- "A decision word that was never written … cannot be read, because n ≤ DP" (41_viterbi.md R186) -/
  decWritten : ∀ j, j < s.vit.dp → s.unwritten.dec.getD j 0 = 0
  /-- DEC bits 63:16 read 0 also while a decision word is unwritten (10_state.md R48) -/
  decFree : ∀ j, (s.unwritten.dec.getD j 0).toNat < 2 ^ 16
  /-- TDIB[49..63] read 0 from power-on (10_state.md R53) -/
  tdibFree : ∀ j, 49 ≤ j → s.unwritten.tdib.getD j 0 = 0
  /-- TOUT[12..15] read 0 from power-on (10_state.md R54) -/
  toutFree : ∀ j, 12 ≤ j → s.unwritten.tout.getD j 0 = 0

/-- The word a command sets in STATUS: nothing, or the one bit of one error or of one event (60_exceptions.md R331). -/
def oneReport (x : Word) : Prop := x = 0 ∨ (∃ e : ErrKind, x = BitVec.twoPow 32 e.bit) ∨ ∃ e : Event, x = BitVec.twoPow 32 e.bit

/-- The error record of a failed command or access on an otherwise unchanged state (60_exceptions.md R321), written out
field by field. -/
def onlyErrorRecord (s t : State) (bit : Nat) (code : BitVec 4) (errInfo : Word) : Prop :=
  t.ctl.sticky = s.ctl.sticky ||| BitVec.twoPow 32 bit ∧ t.ctl.errCode = code ∧ t.ctl.errInfo = errInfo ∧
  t.ctl.ctrl = s.ctl.ctrl ∧ t.ctl.irqEn = s.ctl.irqEn ∧ t.ctl.sqThresh = s.ctl.sqThresh ∧
  t.cfg = s.cfg ∧ t.fec = s.fec ∧ t.vit = s.vit ∧ t.trl = s.trl ∧ t.sync = s.sync ∧ t.dil = s.dil ∧
  t.unwritten = s.unwritten ∧ t.rstN = s.rstN ∧ t.pending = s.pending ∧ t.rdata = s.rdata ∧ t.draws = s.draws

/-! The terms in which statements say what the spec's tables hold, written from the tables themselves and not from the
decoder or the register map of the model. -/

/-- The headers (UNIT, OP) of the opcode map, each with the reserved bits of its format (30_encoding.md R112, R116). -/
def reservedBits : List (BitVec 8 × Word) :=
  [(0x00, 0x00FFFFFF), (0x01, 0x00FFFFFF), (0x10, 0x00FFFFF0), (0x11, 0x00FFFFF0), (0x20, 0x00FFFFFF),
   (0x21, 0x00FF0000), (0x22, 0x00FFFE00), (0x23, 0x00FFFE00), (0x30, 0x00FFFFFF), (0x40, 0x00FFFFFC),
   (0x41, 0x00FF0000), (0x42, 0x00FFFFFE), (0x43, 0x00FFFFFF), (0x50, 0x00FFFFF8), (0x51, 0x00F08080)]

/-- An illegal field value of 30_encoding.md R118: CODE 12 to 15, CODE 11 in FEC_ENCODE, an absent slot of DEINT. -/
def illegalField (cfg : Cfg) (v : Word) : Bool :=
  let header := v.extractLsb' 24 8
  let low := v.toNat % 16
  (header == 0x10 && decide (12 ≤ low)) || (header == 0x11 && decide (11 ≤ low)) ||
    (header == 0x50 && (cfg.permOf (v.toNat % 8)).length == 0)

/-- The words that fail decoding on an instance (30_encoding.md R114): an undefined (UNIT, OP), a reserved bit that is 1,
or an illegal field value. -/
def illegalWord (cfg : Cfg) (v : Word) : Bool :=
  match reservedBits.lookup (v.extractLsb' 24 8) with
  | none => true
  | some r => v &&& r != 0 || illegalField cfg v

/-- The offsets of the register map that are not reserved (20_memory.md R88). -/
def mappedOffset (o : Nat) : Bool :=
  decide (o ≤ 0x0050 ∨ (0x0080 ≤ o ∧ o < 0x00C0) ∨ (0x0100 ≤ o ∧ o < 0x0158) ∨ (0x0160 ≤ o ∧ o < 0x0170) ∨
    (0x0200 ≤ o ∧ o < 0x0310) ∨ (0x0340 ≤ o ∧ o < 0x0380) ∨ (0x0400 ≤ o ∧ o < 0x0500) ∨
    (0x1000 ≤ o ∧ o < 0x14B0))

/-- The offsets of the register map that a write may reach: RW, WO and the W1C STATUS (20_memory.md R88). -/
def writableOffset (o : Nat) : Bool :=
  decide ((0x0004 ≤ o ∧ o ≤ 0x0014) ∨ o = 0x0038 ∨ (0x0100 ≤ o ∧ o < 0x0120) ∨ (0x0200 ≤ o ∧ o < 0x0300) ∨
    (0x0400 ≤ o ∧ o < 0x0440))

/-- The state with one more host input at the head of its queue: the next step takes it. -/
def State.offer (s : State) (x : HostInput) : State := { s with pending := x :: s.pending }

/-- A good read of an offset gives the word x, and does nothing else but to count the free value it may take
(20_memory.md R84; 10_state.md R62). -/
def readsAs (s : State) (o : Nat) (x : Word) : Prop :=
  ∃ n, step (s.offer (.read (BitVec.ofNat 13 o) .w32)) = .next { s with rdata := x, draws := n }

/-- A good read of an offset takes one free value if a bit i < 32 of its word is free, that is, belongs to an element
without a value, and none otherwise; the free bits are that value's (10_state.md R62; log 3, log 5). -/
def drawsFor (s : State) (o : Nat) (free : Nat → Bool) : Prop :=
  ∃ x, step (s.offer (.read (BitVec.ofNat 13 o) .w32)) =
      .next { s with rdata := x, draws := if (List.range 32).any free then s.draws + 1 else s.draws } ∧
    ∀ i, i < 32 → free i = true → x.getLsbD i = (Config.drawWord s.draws).getLsbD i

/-- The element of a buffer holds no value: nothing has written it since power-on (10_state.md R62). -/
def holdsNoValue (s : State) : OperandBuffer → Nat → Prop
  | .opd, k => s.unwritten.opd.getLsbD k = true
  | .dec, k => s.unwritten.dec.getD k 0 ≠ 0
  | .cin, k => s.unwritten.cin.getLsbD k = true
  | .tin, k => s.unwritten.tin.getD k 0 ≠ 0
  | .din, k => s.unwritten.din.getD k 0 ≠ 0

/-- The buffer elements a command reads in a state: its operands (40_block_fec.md R147, R150, R155, R156; 41_viterbi.md R185,
R187; 42_trellis.md R213; 44_deinterleave.md R282, R284). A command that its own check ends before reads none. -/
def readsElement (s : State) : Instr → OperandBuffer → Nat → Prop
  | .fecDecode c, .opd, k => k < c.n
  | .fecEncode c, .opd, k => c ≠ .rs2412 ∧ k < c.k
  | .convChainback n, .dec, k => n.toNat ≤ s.vit.dp ∧ s.vit.dp - n.toNat ≤ k ∧ k < s.vit.dp
  | .convEncode n, .cin, k => n.toNat ≤ 300 ∧ k < n.toNat
  | .trellis12, .tin, k => k < 98
  | .deint slot, .din, k => k ∈ s.cfg.perm.getD slot.toNat []
  | .pack off cnt _, .din, k => off.toNat + cnt.toNat ≤ 128 ∧ off.toNat ≤ k ∧ k < off.toNat + cnt.toNat
  | _, _, _ => False

/-- The sync unit after the parts of a symbol that every SYNC_STATE shares (43_sync.md R233, R235, R236): the window
shifted by one, and the VCNT, NXDN and warm-up counts. -/
def SyncUnit.afterSymbol (nW : Nat) (u : SyncUnit) (d : Dibit) : SyncUnit :=
  { u with
    window := (d :: u.window).take nW
    vcnt := min (u.vcnt + 1) nW
    nxdnCnt := if u.nxdnValid then (if u.nxdnCnt.toNat + 1 < 2 ^ 32 then u.nxdnCnt + 1 else u.nxdnCnt) else u.nxdnCnt
    warmT := if u.warmT < 18 then u.warmT + 1 else u.warmT }

/-- An entry is enabled and matches the window (43_sync.md R234, R237), its gate left out. -/
def entryMatches (c : Control) (u : SyncUnit) (e : SyncEntry) : Bool :=
  c.ctrl.getLsbD e.proto.toNat &&
    decide ((List.range e.pat.length).countP (fun j =>
      decide (u.vcnt ≤ j ∨ u.window.getD j 0 ≠ e.pat.getD (e.pat.length - 1 - j) 0)) ≤ e.tol)

/-- The gate of the NXDN short sync is open (43_sync.md R239). -/
def gateOpen (u : SyncUnit) : Bool := u.nxdnValid && decide (0 < u.nxdnCnt.toNat ∧ u.nxdnCnt.toNat % 192 = 0)

/-- scan() accepts the entry (43_sync.md R237). -/
def entryAccepted (c : Control) (u : SyncUnit) (e : SyncEntry) : Bool := entryMatches c u e && (!e.short || gateOpen u)

/-- One of the entries is a matching short sync that its gate refuses, which resets the NXDN count (43_sync.md R237). -/
def gatedOut (c : Control) (u : SyncUnit) (es : List SyncEntry) : Bool :=
  es.any (fun e => entryMatches c u e && e.short && !gateOpen u)

end Sys2Proof.Machine
end

