-- ==== Sys2Proof/Certificates/Slice0/Obligations.lean ====
section
/-! DEFINITION. The statements for the provers, each from the numbered rules of spec/ that its docstring names. -/

open Sys2Proof Sys2Proof.Machine

/-! Encoding and decoding. -/

/-- The words of 30_encoding.md R129, read as that rule says. -/
def Obligations.ExampleWordsDecode : Prop :=
  decode 0x10000007 = .ok (.fecDecode .gol2412) ∧ decode 0x21000200 = .ok (.convStep 2 0) ∧
  decode 0x2200000C = .ok (.convChainback 12) ∧ decode 0x40000003 = .ok (.pushSymbol 3) ∧
  decode 0x4100FFFF = .ok (.pushSample (-1)) ∧ decode 0x42000001 = .ok (.resync true) ∧
  decode 0x51012000 = .ok (.pack 0 32 1) ∧ decode 0x50000000 = .ok (.deint 0) ∧
  decode 0x10000010 = .error .reservedBit ∧ decode 0x1000000C = .error .illegalField ∧
  decode 0x60000000 = .error .undefinedOp

/-- Every command decodes from its word, with every operand at every value its field admits (R112, R113, R126). -/
def Obligations.DecodeOfEncode : Prop := ∀ i : Instr, i.wellFormed = true → decode (encode i) = .ok i

/-- A word that decodes is the word of a well-formed command, so no two words are one command and no bit of a word is
ignored (R115, R126). -/
def Obligations.EncodeOfDecode : Prop :=
  ∀ (v : Word) (i : Instr), decode v = .ok i → i.wellFormed = true ∧ encode i = v

/-- The word of each command, as the encoding column of R126 writes it. -/
def Obligations.EncodingTable : Prop :=
  encode .nop = 0x00000000 ∧ encode .softReset = 0x01000000 ∧
  (∀ c, encode (.fecDecode c) = 0x10000000 ||| c.num.setWidth 32) ∧
  (∀ c, encode (.fecEncode c) = 0x11000000 ||| c.num.setWidth 32) ∧
  encode .convStart = 0x20000000 ∧
  (∀ s0 s1, encode (.convStep s0 s1) = 0x21000000 ||| (s0.setWidth 32 <<< 8) ||| s1.setWidth 32) ∧
  (∀ n, encode (.convChainback n) = 0x22000000 ||| n.setWidth 32) ∧
  (∀ n, encode (.convEncode n) = 0x23000000 ||| n.setWidth 32) ∧
  encode .trellis12 = 0x30000000 ∧
  (∀ d, encode (.pushSymbol d) = 0x40000000 ||| d.setWidth 32) ∧
  (∀ v, encode (.pushSample v) = 0x41000000 ||| v.setWidth 32) ∧
  encode (.resync false) = 0x42000000 ∧ encode (.resync true) = 0x42000001 ∧
  encode .syncReset = 0x43000000 ∧
  (∀ s, encode (.deint s) = 0x50000000 ||| s.setWidth 32) ∧
  (∀ off cnt shr, encode (.pack off cnt shr) =
    0x51000000 ||| (shr.setWidth 32 <<< 16) ||| (cnt.setWidth 32 <<< 8) ||| off.setWidth 32)

/-- A word that fails decoding raises ERR_ILLEGAL with ERRINFO the word, and changes nothing else (R114, R322). -/
def Obligations.IllegalWordOnlyRecordsErrIllegal : Prop :=
  ∀ (v : Word) (s : State), illegalWord s.cfg v = true → ∃ t, issue v s = .next t ∧ onlyErrorRecord s t 16 1 v

/-- Any other word is a command, and issuing it executes the command (R114, R116, R118). -/
def Obligations.LegalWordExecutesItsCommand : Prop :=
  ∀ (v : Word) (s : State), illegalWord s.cfg v = false →
    ∃ i, decode v = .ok i ∧ encode i = v ∧ issue v s = exec i s

/-! The bus. -/

/-- A step with a CMD write of any word at the head of the queue issues that word (20_memory.md R86); around it only the
queue, the model's own (log 6), moves on. A word that decodes runs its command, and one that does not only records
ERR_ILLEGAL (30_encoding.md R114; 60_exceptions.md R322). -/
def Obligations.StepRunsDecodedCommand : Prop :=
  ∀ (s : State) (rest : List HostInput) (v : Word), s.rstN = true → s.pending = cmdWrite v :: rest →
    step s = issue v { s with pending := rest } ∧
    (∀ i, decode v = .ok i → step s = exec i { s with pending := rest }) ∧
    (∀ e, decode v = .error e → ∃ t, step s = .next t ∧ onlyErrorRecord { s with pending := rest } t 16 1 v)

/-- A bad access: a read gives 0, a write drops its data, and both only set ERR_BUS with ERRCODE 5 and ERRINFO the offset
(20_memory.md R92). -/
def Obligations.BadAccessOnlyRecordsErrBus : Prop :=
  ∀ (s : State) (a : Offset) (width : AccessWidth) (v : Word), s.rstN = true →
    ((width ≠ .w32 ∨ a.toNat % 4 ≠ 0 ∨ mappedOffset a.toNat = false) →
      ∃ t, step (s.offer (.read a width)) = .next { t with rdata := 0 } ∧
        onlyErrorRecord s t 20 5 (a.setWidth 32)) ∧
    ((width ≠ .w32 ∨ a.toNat % 4 ≠ 0 ∨ writableOffset a.toNat = false) →
      ∃ t, step (s.offer (.write a width v)) = .next t ∧ onlyErrorRecord s t 20 5 (a.setWidth 32))

/-- A good read gives some word and has no side effect on the block (the count of free values is the model's own, log 5); a
good write outside CMD, STATUS and CAP_PTR raises nothing, and of the elements that hold no value it gives some a value and
takes none away (20_memory.md R84, R85, R90; 10_state.md R62). -/
def Obligations.GoodAccessHasNoSideEffect : Prop :=
  ∀ (s : State) (a : Offset), s.rstN = true → a.toNat % 4 = 0 →
    (mappedOffset a.toNat = true →
      ∃ x n, step (s.offer (.read a .w32)) = .next { s with rdata := x, draws := n }) ∧
    (writableOffset a.toNat = true → a ≠ 0x0008 → a ≠ 0x000C → a ≠ 0x0038 → ∀ v,
      ∃ t, step (s.offer (.write a .w32 v)) = .next t ∧
        t = { s with
          ctl := { s.ctl with ctrl := t.ctl.ctrl, irqEn := t.ctl.irqEn, sqThresh := t.ctl.sqThresh }
          fec := { s.fec with opd := t.fec.opd }
          vit := { s.vit with cin := t.vit.cin }
          trl := { s.trl with tin := t.trl.tin }
          dil := { s.dil with din := t.dil.din }
          unwritten := { s.unwritten with
            opd := t.unwritten.opd, cin := t.unwritten.cin, tin := t.unwritten.tin, din := t.unwritten.din } } ∧
        t.unwritten.opd &&& ~~~s.unwritten.opd = 0 ∧ t.unwritten.cin &&& ~~~s.unwritten.cin = 0 ∧
        ∀ j, t.unwritten.tin.getD j 0 &&& ~~~s.unwritten.tin.getD j 0 = 0 ∧
          t.unwritten.din.getD j 0 &&& ~~~s.unwritten.din.getD j 0 = 0)

/-- The words that reads of the single-field registers give; a read of CMD gives 0 (20_memory.md R84, R86, R88; 10_state.md
R33, R35, R37 to R39, R47, R57, R67 to R69, R71, R76, R79). -/
def Obligations.ScalarRegistersRead : Prop :=
  ∀ s : State, s.rstN = true →
    readsAs s 0x0000 0x44534301 ∧
    readsAs s 0x0004 (s.ctl.ctrl.setWidth 32) ∧
    readsAs s 0x000C 0 ∧
    readsAs s 0x0010 (s.ctl.irqEn &&& 0x001F3F00) ∧
    readsAs s 0x0014 s.ctl.sqThresh ∧
    readsAs s 0x0018 (s.ctl.errCode.setWidth 32) ∧
    readsAs s 0x001C s.ctl.errInfo ∧
    readsAs s 0x0024 ((BitVec.ofNat 5 s.sync.warmT).setWidth 32) ∧
    readsAs s 0x0028 ((BitVec.ofNat 11 s.sync.searchCnt).setWidth 32) ∧
    readsAs s 0x002C s.sync.nxdnCnt ∧
    readsAs s 0x0030 s.sync.sqCnt ∧
    readsAs s 0x0034 s.sync.frameCnt ∧
    readsAs s 0x0038 ((BitVec.ofNat 8 s.dil.capPtr).setWidth 32) ∧
    readsAs s 0x0048 ((BitVec.ofNat 9 s.vit.dp).setWidth 32) ∧
    readsAs s 0x004C ((BitVec.ofNat 7 s.sync.vcnt).setWidth 32)

/-- The registers of several fields, with each field at the bits its table gives it and every other bit 0: STATUS
(10_state.md R36), SYNC_INFO (R72), STAT (R77), FEC_RES (R44), TRL_RES (R55), PARAM0 (R34). -/
def Obligations.FieldRegistersRead : Prop :=
  ∀ s : State, s.rstN = true →
    (∃ x, readsAs s 0x0008 x ∧
      (∀ i, 8 ≤ i → i ≤ 20 → i ≠ 14 → i ≠ 15 → x.getLsbD i = s.ctl.sticky.getLsbD i) ∧
      (∀ i, 6 ≤ i → (i < 8 ∨ i = 14 ∨ i = 15 ∨ 20 < i) → x.getLsbD i = false) ∧
      x.extractLsb' 0 2 = (match s.sync.state with | .look => 0 | .found => 1 | .locked => 2) ∧
      x.getLsbD 2 = decide (s.sync.warmT < 18) ∧ x.getLsbD 3 = s.sync.nxdnValid ∧
      x.getLsbD 4 = s.sync.pol ∧ x.getLsbD 5 = s.sync.stEn) ∧
    (∃ x, readsAs s 0x0020 x ∧ x.getLsbD 0 = s.sync.info.valid ∧ x.extractLsb' 1 3 = s.sync.info.proto ∧
      x.getLsbD 4 = s.sync.info.epol ∧ x.extractLsb' 5 2 = s.sync.info.stn ∧ x.extractLsb' 7 2 = s.sync.info.var ∧
      x.extractLsb' 9 2 = s.sync.info.rate ∧ x.extractLsb' 11 5 = 0 ∧ x.extractLsb' 16 8 = s.sync.info.entry ∧
      x.extractLsb' 24 8 = s.sync.info.mism) ∧
    (∃ x, readsAs s 0x003C x ∧ x.extractLsb' 0 2 = s.dil.statDibit ∧ x.extractLsb' 2 6 = 0 ∧
      x.extractLsb' 8 24 = s.dil.statCnt) ∧
    (∃ x, readsAs s 0x0040 x ∧ x.getLsbD 0 = s.fec.fecRes.done ∧ x.getLsbD 1 = s.fec.fecRes.ok ∧
      x.getLsbD 2 = s.fec.fecRes.enc ∧ x.getLsbD 3 = s.fec.fecRes.stub ∧ x.extractLsb' 4 4 = s.fec.fecRes.code ∧
      x.extractLsb' 8 4 = s.fec.fecRes.nflip ∧ x.extractLsb' 12 20 = 0) ∧
    (∃ x, readsAs s 0x0044 x ∧ x.getLsbD 0 = s.trl.trlRes.done ∧ x.getLsbD 1 = s.trl.trlRes.ok ∧
      x.extractLsb' 2 6 = 0 ∧ x.extractLsb' 8 6 = s.trl.trlRes.steps ∧ x.extractLsb' 14 2 = 0 ∧
      x.extractLsb' 16 6 = s.trl.trlRes.failStep ∧ x.extractLsb' 22 10 = 0) ∧
    (∃ x, readsAs s 0x0050 x ∧ x.extractLsb' 0 7 = BitVec.ofNat 7 s.cfg.nW ∧ x.getLsbD 7 = false ∧
      x.extractLsb' 8 8 = BitVec.ofNat 8 s.cfg.syncTable.length ∧ x.extractLsb' 24 8 = 0 ∧
      ∀ slot, slot < 8 → x.getLsbD (16 + slot) = decide (0 < (s.cfg.permOf slot).length))

/-- The words that reads of the buffers give, bit by bit: vector bits, MSB-first stream bits, byte lanes and dibit lanes.
This is said of every bit whose element holds a value; PM and the window hold values always (20_memory.md R83, R88;
10_state.md R49, R62). -/
def Obligations.BufferWordsRead : Prop :=
  ∀ s : State, s.rstN = true →
    (∀ w, w < 16 → readsAs s (0x0080 + 4 * w) ((s.vit.pm.getD w 0).setWidth 32)) ∧
    (∀ w, w < 4 → ∃ x, readsAs s (0x0160 + 4 * w) x ∧
      ∀ i, i < 32 → x.getLsbD i = (s.sync.window.getD ((32 * w + i) / 2) 0).getLsbD (i % 2)) ∧
    (∀ w, w < 300 → ∃ x, readsAs s (0x1000 + 4 * w) x ∧ ∀ i, i < 32 →
      (s.unwritten.dec.getD w 0).getLsbD i = false → x.getLsbD i = (s.vit.dec.getD w 0).getLsbD i) ∧
    (∀ w, w < 8 → ∃ x y, readsAs s (0x0100 + 4 * w) x ∧ readsAs s (0x0120 + 4 * w) y ∧ ∀ i, i < 32 →
      (s.unwritten.opd.getLsbD (32 * w + i) = false → x.getLsbD i = s.fec.opd.getLsbD (32 * w + i)) ∧
      (s.unwritten.res.getLsbD (32 * w + i) = false → y.getLsbD i = s.fec.res.getLsbD (32 * w + i))) ∧
    (∀ w, w < 4 → ∃ x, readsAs s (0x0140 + 4 * w) x ∧ ∀ i, i < 32 →
      s.unwritten.info.getLsbD (32 * w + i) = false → x.getLsbD i = s.fec.info.getLsbD (32 * w + i)) ∧
    (∀ w, w < 2 → ∃ x, readsAs s (0x0150 + 4 * w) x ∧ ∀ i, i < 32 →
      s.unwritten.syn.getLsbD (32 * w + i) = false → x.getLsbD i = s.fec.syn.getLsbD (32 * w + i)) ∧
    (∀ w, w < 32 → ∃ x y z, readsAs s (0x0200 + 4 * w) x ∧ readsAs s (0x0280 + 4 * w) y ∧
      readsAs s (0x0480 + 4 * w) z ∧ ∀ l, l < 4 → ∀ b, b < 8 →
      ((s.unwritten.din.getD (4 * w + l) 0).getLsbD b = false →
        x.getLsbD (8 * l + b) = (s.dil.din.getD (4 * w + l) 0).getLsbD b) ∧
      ((s.unwritten.tin.getD (4 * w + l) 0).getLsbD b = false →
        y.getLsbD (8 * l + b) = (s.trl.tin.getD (4 * w + l) 0).getLsbD b) ∧
      (s.unwritten.cenc.getLsbD (8 * (4 * w + l) + b) = false →
        z.getLsbD (8 * l + (7 - b)) = s.vit.cenc.getLsbD (8 * (4 * w + l) + b))) ∧
    (∀ w, w < 4 → ∃ x, readsAs s (0x0300 + 4 * w) x ∧ ∀ l, l < 4 → ∀ b, b < 8 →
      (s.unwritten.tout.getD (4 * w + l) 0).getLsbD b = false →
        x.getLsbD (8 * l + b) = (s.trl.tout.getD (4 * w + l) 0).getLsbD b) ∧
    (∀ w, w < 16 → ∃ x y z, readsAs s (0x0340 + 4 * w) x ∧ readsAs s (0x0400 + 4 * w) y ∧
      readsAs s (0x0440 + 4 * w) z ∧ ∀ l, l < 4 → ∀ b, b < 8 →
      ((s.unwritten.tdib.getD (4 * w + l) 0).getLsbD b = false →
        x.getLsbD (8 * l + b) = (s.trl.tdib.getD (4 * w + l) 0).getLsbD b) ∧
      (s.unwritten.cin.getLsbD (8 * (4 * w + l) + b) = false →
        y.getLsbD (8 * l + (7 - b)) = s.vit.cin.getLsbD (8 * (4 * w + l) + b)) ∧
      (s.unwritten.cout.getLsbD (8 * (4 * w + l) + b) = false →
        z.getLsbD (8 * l + (7 - b)) = s.vit.cout.getLsbD (8 * (4 * w + l) + b)))

/-- A good read of a buffer word with a bit that State.unwritten records as of an element without a value takes one
draw(), and has its bits there; a read of any other word takes none (10_state.md R62, 20_memory.md R83, R84). That the free
value is the next of a counted sequence is the model's choice (log 3, log 5); nothing says what it is. -/
def Obligations.UnwrittenBitsReadFree : Prop :=
  ∀ s : State, s.rstN = true →
    (∀ w, w < 8 →
      drawsFor s (0x0100 + 4 * w) (fun i => s.unwritten.opd.getLsbD (32 * w + i)) ∧
      drawsFor s (0x0120 + 4 * w) (fun i => s.unwritten.res.getLsbD (32 * w + i))) ∧
    (∀ w, w < 4 → drawsFor s (0x0140 + 4 * w) (fun i => s.unwritten.info.getLsbD (32 * w + i))) ∧
    (∀ w, w < 2 → drawsFor s (0x0150 + 4 * w) (fun i => s.unwritten.syn.getLsbD (32 * w + i))) ∧
    (∀ w, w < 300 → drawsFor s (0x1000 + 4 * w) (fun i => (s.unwritten.dec.getD w 0).getLsbD i)) ∧
    (∀ w, w < 32 →
      drawsFor s (0x0200 + 4 * w) (fun i => (s.unwritten.din.getD (4 * w + i / 8) 0).getLsbD (i % 8)) ∧
      drawsFor s (0x0280 + 4 * w) (fun i => (s.unwritten.tin.getD (4 * w + i / 8) 0).getLsbD (i % 8)) ∧
      drawsFor s (0x0480 + 4 * w) (fun i => s.unwritten.cenc.getLsbD (32 * w + 8 * (i / 8) + (7 - i % 8)))) ∧
    (∀ w, w < 4 → drawsFor s (0x0300 + 4 * w) (fun i => (s.unwritten.tout.getD (4 * w + i / 8) 0).getLsbD (i % 8))) ∧
    (∀ w, w < 16 →
      drawsFor s (0x0340 + 4 * w) (fun i => (s.unwritten.tdib.getD (4 * w + i / 8) 0).getLsbD (i % 8)) ∧
      drawsFor s (0x0400 + 4 * w) (fun i => s.unwritten.cin.getLsbD (32 * w + 8 * (i / 8) + (7 - i % 8))) ∧
      drawsFor s (0x0440 + 4 * w) (fun i => s.unwritten.cout.getLsbD (32 * w + 8 * (i / 8) + (7 - i % 8)))) ∧
    (∀ o, o % 4 = 0 → (o ≤ 0x0050 ∨ (0x0080 ≤ o ∧ o < 0x00C0) ∨ (0x0160 ≤ o ∧ o < 0x0170)) →
      drawsFor s o (fun _ => false))

/-- A write to a writable register or buffer word other than STATUS, CMD and CAP_PTR is read back, less the reserved bits
of a register and the unused bits of the dibit lanes: the elements of the word hold values from the write on (20_memory.md
R85, R88; 10_state.md R35, R37, R62). -/
def Obligations.WriteIsReadBack : Prop :=
  ∀ (s : State) (a : Offset) (v : Word), s.rstN = true → a.toNat % 4 = 0 → writableOffset a.toNat = true →
    a ≠ 0x0008 → a ≠ 0x000C → a ≠ 0x0038 →
    ∃ t, step (s.offer (.write a .w32 v)) = .next t ∧
      readsAs t a.toNat
        (if a = 0x0004 then v &&& 0x000001FF
          else if a = 0x0010 then v &&& 0x001F3F00
          else if 0x0200 ≤ a.toNat ∧ a.toNat < 0x0300 then v &&& 0x03030303
          else v)

/-- The buffers are separate storage: a write to one register or buffer word leaves what a read of any other would give. For
the bits of elements that hold no value this rests on the model's choice (log 3, log 5): the next read takes the same free
value whether or not the write came before it, since a write takes none. A write to CMD issues a command, STATUS is live in
part, and CAP_PTR may raise ERR_RANGE, so these three are not written here (20_memory.md R81, R85). -/
def Obligations.WriteLeavesOtherWords : Prop :=
  ∀ (s : State) (a b : Offset) (v x : Word), s.rstN = true → a.toNat % 4 = 0 → b.toNat % 4 = 0 →
    writableOffset a.toNat = true → a ≠ 0x0008 → a ≠ 0x000C → a ≠ 0x0038 →
    mappedOffset b.toNat = true → a ≠ b → readsAs s b.toNat x →
    ∃ t, step (s.offer (.write a .w32 v)) = .next t ∧ readsAs t b.toNat x

/-- A write of v to STATUS clears the sticky bits i in 8..20 with v[i] = 1 and nothing else (20_memory.md R87). -/
def Obligations.StatusWriteClearsOnes : Prop :=
  ∀ (s : State) (v : Word), s.rstN = true →
    ∃ t, step (s.offer (.write 0x0008 .w32 v)) = .next t ∧
      t = { s with ctl := { s.ctl with sticky := t.ctl.sticky } } ∧
      ∀ x y, readsAs s 0x0008 x → readsAs t 0x0008 y →
        ∀ i, i < 32 → y.getLsbD i = if 8 ≤ i ∧ i ≤ 20 ∧ v.getLsbD i = true then false else x.getLsbD i

/-- A write of v to CAP_PTR: v when v ≤ 128, else ERR_RANGE with ERRINFO = v (20_memory.md R89). -/
def Obligations.CapPtrWrite : Prop :=
  ∀ (s : State) (v : Word), s.rstN = true →
    (v.toNat ≤ 128 →
      step (s.offer (.write 0x0038 .w32 v)) = .next { s with dil := { s.dil with capPtr := v.toNat } }) ∧
    (128 < v.toNat →
      ∃ t, step (s.offer (.write 0x0038 .w32 v)) = .next t ∧ onlyErrorRecord s t 18 3 v)

/-- IRQ is the OR over i in 8..20 of STATUS[i] AND IRQ_EN[i], and 0 while RST_N is 0 (60_exceptions.md R328; 70 R350). That
this formula holds also right after a bad bus read, which may set ERR_BUS, is the model's reading (log 19): R328 says too
that IRQ changes only at the end of a command or a bus write. -/
def Obligations.IrqIsTheEnabledStatusBits : Prop :=
  ∀ (s : State) (x y : Word), (s.rstN = false → s.irq = false) ∧
    (s.rstN = true → readsAs s 0x0008 x → readsAs s 0x0010 y →
      (s.irq = true ↔ ∃ i, 8 ≤ i ∧ i ≤ 20 ∧ x.getLsbD i = true ∧ y.getLsbD i = true))

/-- With no access waiting, nothing changes. While RST_N is 0 accesses are ignored and a read gives 0. Driving RST_N to 0
changes only that level, and driving it to the level it has changes nothing (70 R350, R365; log 8, the model's reading). -/
def Obligations.NothingHappensWithoutAnAccess : Prop :=
  ∀ (s : State) (a : Offset) (width : AccessWidth) (v : Word),
    (s.pending = [] → step s = .next s) ∧
    (s.rstN = false → step (s.offer (.read a width)) = .next { s with rdata := 0 } ∧
      step (s.offer (.write a width v)) = .next s ∧ s.irq = false) ∧
    step (s.offer .resetLow) = .next { s with rstN := false } ∧
    (s.rstN = true → step (s.offer .resetHigh) = .next s)

/-- When RST_N returns to 1 every element with a reset value has it, the configuration is the instance's own, and the next
access is accepted at once (70_reset_and_hazards.md R350, R351; 10_state.md R61; that the queue is kept is log 8). No
buffer element holds a value (R62). -/
def Obligations.ReleasedResetState : Prop :=
  ∀ s : State, s.rstN = false →
    ∃ t, step (s.offer .resetHigh) = .next t ∧ t.rstN = true ∧ t.cfg = s.cfg ∧ t.pending = s.pending ∧
      t.ctl.ctrl = 0 ∧ t.ctl.irqEn = 0 ∧ t.ctl.sqThresh = 0 ∧ t.ctl.sticky = 0 ∧
      t.ctl.errCode = 0 ∧ t.ctl.errInfo = 0 ∧
      readsAs t 0x0008 0x04 ∧ readsAs t 0x0020 0 ∧ readsAs t 0x003C 0 ∧ readsAs t 0x0040 0 ∧ readsAs t 0x0044 0 ∧
      (∀ j, t.vit.pm.getD j 0 = 0) ∧ t.vit.dp = 0 ∧
      t.sync.window.length = s.cfg.nW ∧ (∀ j, t.sync.window.getD j 0 = 0) ∧ t.sync.vcnt = 0 ∧
      t.sync.state = .look ∧ t.sync.warmT = 0 ∧ t.sync.searchCnt = 0 ∧ t.sync.nxdnCnt = 0 ∧
      t.sync.nxdnValid = false ∧ t.sync.sqCnt = 0 ∧ t.sync.pol = false ∧ t.sync.stEn = false ∧
      t.sync.frameCnt = 0 ∧ t.dil.capPtr = 0 ∧ t.unwritten = Buffers.allUnwritten ∧ t.irq = false

/-- The power-on state of an instance, for every configuration and whatever the unspecified buffers hold: every element that
R351 and R61 give a value has it, ID, STATUS and the registers of several fields read as they say, no element of the
unspecified buffers holds a value (10_state.md R62), and the block accepts accesses. The reset state is the power-on state
of a valid configuration (log 1), with nothing waiting (log 6). -/
def Obligations.PowerOnState : Prop :=
  (∃ cfg b, cfg.wf = true ∧ State.reset = State.powerOn cfg b) ∧
  ∀ (cfg : Cfg) (b : PowerOnBuffers),
    let t := State.powerOn cfg b
    t.cfg = cfg ∧ t.rstN = true ∧ t.pending = [] ∧ t.irq = false ∧
    t.ctl.ctrl = 0 ∧ t.ctl.irqEn = 0 ∧ t.ctl.sqThresh = 0 ∧ t.ctl.sticky = 0 ∧ t.ctl.errCode = 0 ∧ t.ctl.errInfo = 0 ∧
    t.fec.fecRes = { done := false, ok := false, enc := false, stub := false, code := 0, nflip := 0 } ∧
    t.trl.trlRes = { done := false, ok := false, steps := 0, failStep := 0 } ∧
    (∀ j, t.vit.pm.getD j 0 = 0) ∧ t.vit.dp = 0 ∧
    t.sync.window.length = cfg.nW ∧ (∀ j, t.sync.window.getD j 0 = 0) ∧ t.sync.vcnt = 0 ∧
    t.sync.state = .look ∧ t.sync.warmT = 0 ∧ t.sync.searchCnt = 0 ∧ t.sync.nxdnValid = false ∧ t.sync.nxdnCnt = 0 ∧
    t.sync.sqCnt = 0 ∧ t.sync.pol = false ∧ t.sync.stEn = false ∧ t.sync.frameCnt = 0 ∧
    t.sync.info = { valid := false, proto := 0, epol := false, stn := 0, var := 0, rate := 0, entry := 0, mism := 0 } ∧
    t.dil.capPtr = 0 ∧ t.dil.statDibit = 0 ∧ t.dil.statCnt = 0 ∧
    readsAs t 0x0000 0x44534301 ∧ readsAs t 0x0004 0 ∧ readsAs t 0x0008 0x04 ∧ readsAs t 0x0010 0 ∧
    readsAs t 0x0014 0 ∧ readsAs t 0x0018 0 ∧ readsAs t 0x001C 0 ∧ readsAs t 0x0020 0 ∧ readsAs t 0x003C 0 ∧
    readsAs t 0x0040 0 ∧ readsAs t 0x0044 0 ∧
    t.unwritten.opd = BitVec.allOnes 256 ∧ t.unwritten.res = BitVec.allOnes 256 ∧
    t.unwritten.info = BitVec.allOnes 128 ∧ t.unwritten.syn = BitVec.allOnes 64 ∧
    t.unwritten.cin = BitVec.allOnes 512 ∧ t.unwritten.cout = BitVec.allOnes 512 ∧
    t.unwritten.cenc = BitVec.allOnes 1024 ∧
    (∀ j, j < 300 → t.unwritten.dec.getD j 0 = 0xFFFF) ∧
    (∀ j, j < 128 → t.unwritten.tin.getD j 0 = 3 ∧ t.unwritten.din.getD j 0 = 3) ∧
    (∀ j, t.unwritten.tdib.getD j 0 = if j < 49 then 3 else 0) ∧
    (∀ j, t.unwritten.tout.getD j 0 = if j < 12 then 0xFF else 0)

/-! The system commands. -/

/-- NOP changes nothing, and 0x00000000 is the only word of UNIT 0, OP 0 that is not illegal: there is no hint
(45_system.md R310; 30_encoding.md R121). -/
def Obligations.NopIsTheOnlyNop : Prop :=
  ∀ (s : State) (v : Word), issue 0 s = .next s ∧ exec .nop s = .next s ∧
    (v.extractLsb' 24 8 = 0 → v ≠ 0 → ∃ t, issue v s = .next t ∧ onlyErrorRecord s t 16 1 v)

/-- SOFT_RESET returns to the power-on state all but CTRL, IRQ_EN, SQ_THRESH and the buffers; "an element that was unwritten
stays unwritten" (45_system.md R311, R312). -/
def Obligations.SoftResetState : Prop :=
  ∀ (s : State) (b : PowerOnBuffers), ∃ t, exec .softReset s = .next t ∧
    t.cfg = s.cfg ∧ t.rstN = s.rstN ∧ t.pending = s.pending ∧ t.rdata = s.rdata ∧ t.draws = s.draws ∧
    t.unwritten = s.unwritten ∧
    t.ctl = { (State.powerOn s.cfg b).ctl with
      ctrl := s.ctl.ctrl, irqEn := s.ctl.irqEn, sqThresh := s.ctl.sqThresh } ∧
    t.fec = { s.fec with fecRes := (State.powerOn s.cfg b).fec.fecRes } ∧
    t.vit = { (State.powerOn s.cfg b).vit with
      dec := s.vit.dec, cin := s.vit.cin, cout := s.vit.cout, cenc := s.vit.cenc } ∧
    t.trl = { s.trl with trlRes := (State.powerOn s.cfg b).trl.trlRes } ∧
    t.sync = (State.powerOn s.cfg b).sync ∧
    t.dil = { (State.powerOn s.cfg b).dil with din := s.dil.din } ∧ t.irq = false

/-! The block FEC unit. -/

/-- The syndrome: bit j is the parity of CW[j] and of the information bits whose row has bit j set (CW · Hᵀ); it is 0
exactly for codewords; it is linear (40_block_fec.md R142). -/
def Obligations.SyndromeIsTheParityCheck : Prop :=
  ∀ (cfg : Cfg) (c : Code), c ≠ .rs2412 → cfg.rowsOk c = true → ∀ cw e : Vec,
    (∀ j, j < c.n - c.k → (cfg.syndrome c cw).getLsbD j =
      (cw.getLsbD j ^^ decide ((List.range c.k).countP (fun i =>
        cw.getLsbD (c.n - 1 - i) && ((cfg.rows c).getD i 0).getLsbD j) % 2 = 1))) ∧
    (∀ j, c.n - c.k ≤ j → (cfg.syndrome c cw).getLsbD j = false) ∧
    (cfg.syndrome c cw = 0 ↔ ∃ u, codeword c cw = cfg.encodeWord c u) ∧
    cfg.syndrome c (cw ^^^ e) = cfg.syndrome c cw ^^^ cfg.syndrome c e

/-- The codeword of U is U ‖ parity: its high k bits are U and its low n − k bits the XOR of the rows that U selects
(40_block_fec.md R141). -/
def Obligations.EncodedWordIsSystematic : Prop :=
  ∀ (cfg : Cfg) (c : Code), c ≠ .rs2412 → cfg.rowsOk c = true → ∀ u : Vec,
    (∀ i, i < c.k → (cfg.encodeWord c u).getLsbD (c.n - c.k + i) = u.getLsbD i) ∧
    (∀ i, c.n ≤ i → (cfg.encodeWord c u).getLsbD i = false) ∧
    (∀ j, j < c.n - c.k → (cfg.encodeWord c u).getLsbD j =
      decide ((List.range c.k).countP (fun i =>
        u.getLsbD (c.k - 1 - i) && ((cfg.rows c).getD i 0).getLsbD j) % 2 = 1))

/-- The syndrome table: an entry is an error word of weight 1 to t_c with that syndrome and of the least such weight, and
every nonzero syndrome of an error word of weight 1 to t_c has an entry (40_block_fec.md R143). -/
def Obligations.SyndromeTableHoldsLeastWeight : Prop :=
  ∀ (cfg : Cfg) (c : Code) (s : BitVec 64), c.hasTable = true →
    (∀ e, syndromeTable cfg c s = some e →
      cfg.syndrome c e = s ∧ e.toNat < 2 ^ c.n ∧ 1 ≤ popcount e ∧ popcount e ≤ cfg.depth c ∧
      ∀ e' : Vec, e'.toNat < 2 ^ c.n → e' ≠ 0 → cfg.syndrome c e' = s → popcount e ≤ popcount e') ∧
    (∀ e : Vec, e.toNat < 2 ^ c.n → e ≠ 0 → popcount e ≤ cfg.depth c → cfg.syndrome c e = s → s ≠ 0 →
      (syndromeTable cfg c s).isSome = true)

/-- FEC_DECODE of a code with a table: RES, INFO, SYN and FEC_RES by the syndrome and its table entry, EV_FEC_FAIL when
there is none, and nothing else (40_block_fec.md R145, R146, R147). OPD[n−1:0] holds values; where
it does not, UnwrittenReadFaults says what happens (R147 (f)). -/
def Obligations.FecDecodeOfTableCode : Prop :=
  ∀ (c : Code) (s : State), c.hasTable = true → (∀ i, i < c.n → s.unwritten.opd.getLsbD i = false) →
    ∃ t e ok, exec (.fecDecode c) s = .next t ∧
      (let cw := codeword c s.fec.opd
       let syn := s.cfg.syndrome c cw
       ((syn = 0 ∧ e = 0 ∧ ok = true) ∨ (syn ≠ 0 ∧ syndromeTable s.cfg c syn = some e ∧ ok = true) ∨
         (syn ≠ 0 ∧ syndromeTable s.cfg c syn = none ∧ e = 0 ∧ ok = false)) ∧
       t.fec.syn = syn ∧ t.fec.res = cw ^^^ e ∧
       (∀ i, i < 128 → t.fec.info.getLsbD i = (decide (i < c.k) && t.fec.res.getLsbD (c.n - c.k + i))) ∧
       t.fec.fecRes = { done := true, ok := ok, enc := false, stub := decide (c = .gol24128), code := c.num,
                        nflip := BitVec.ofNat 4 (popcount e) }) ∧
      t = { s with
        fec := { s.fec with res := t.fec.res, info := t.fec.info, syn := t.fec.syn, fecRes := t.fec.fecRes }
        unwritten := { s.unwritten with res := 0, info := 0, syn := 0 }
        ctl := { s.ctl with sticky := if ok then s.ctl.sticky else s.ctl.sticky ||| BitVec.twoPow 32 12 } }

/-- FEC_DECODE of the stubs BCH_63_16 and RS_24_12: the codeword unchanged, OK = 1, STUB = 1, no event. SYN is the model's
free value (log 4, log 5), of which this says nothing (40_block_fec.md R155, R156). OPD[n−1:0] holds
values; where it does not, UnwrittenReadFaults says what happens. -/
def Obligations.FecDecodeOfStub : Prop :=
  ∀ (c : Code) (s : State), c = .bch6316 ∨ c = .rs2412 → (∀ i, i < c.n → s.unwritten.opd.getLsbD i = false) →
    ∃ t, exec (.fecDecode c) s = .next t ∧
      (∀ i, i < 256 → t.fec.res.getLsbD i = (decide (i < c.n) && s.fec.opd.getLsbD i)) ∧
      (∀ i, i < 128 → t.fec.info.getLsbD i = (decide (i < c.k) && s.fec.opd.getLsbD (c.n - c.k + i))) ∧
      t = { s with
        fec := { opd := s.fec.opd, res := t.fec.res, info := t.fec.info, syn := t.fec.syn,
                 fecRes := { done := true, ok := true, enc := false, stub := true, code := c.num, nflip := 0 } }
        unwritten := { s.unwritten with res := 0, info := 0, syn := 0 }
        draws := t.draws }

/-- FEC_ENCODE: RES the codeword of OPD[k−1:0], INFO that word, SYN 0, FEC_RES; for RS_24_12 ERR_ILLEGAL and no other
effect (40_block_fec.md R150; 30_encoding.md R125). In the first clause OPD[k−1:0] holds values;
where it does not, UnwrittenReadFaults says what happens. RS_24_12 reads nothing. -/
def Obligations.FecEncodeResult : Prop :=
  ∀ (c : Code) (s : State),
    (c ≠ .rs2412 → (∀ i, i < c.k → s.unwritten.opd.getLsbD i = false) → ∃ t, exec (.fecEncode c) s = .next t ∧
      (∀ i, i < 128 → t.fec.info.getLsbD i = (decide (i < c.k) && s.fec.opd.getLsbD i)) ∧
      t = { s with
        fec := { opd := s.fec.opd, res := s.cfg.encodeWord c s.fec.opd, info := t.fec.info, syn := 0,
                 fecRes := { done := true, ok := true, enc := true, stub := false, code := c.num, nflip := 0 } }
        unwritten := { s.unwritten with res := 0, info := 0, syn := 0 } }) ∧
    (c = .rs2412 → ∃ t, exec (.fecEncode c) s = .next t ∧ onlyErrorRecord s t 16 1 0x1100000B)

/-- FEC_ENCODE, RES copied to OPD, FEC_DECODE: OK = 1, NFLIP = 0 and INFO = U, the information word OPD[k−1:0] that was
encoded (40_block_fec.md R148). The bits OPD[k−1:0] hold values, and
the host's copy of RES to OPD, eight bus writes, gives every bit of OPD one. -/
def Obligations.DecodeOfEncodedWord : Prop :=
  ∀ (c : Code) (s : State), s.cfg.rowsOk c = true → c.hasTable = true →
    (∀ i, i < c.k → s.unwritten.opd.getLsbD i = false) →
    ∃ t r, exec (.fecEncode c) s = .next t ∧
      exec (.fecDecode c) { t with
        fec := { t.fec with opd := t.fec.res }, unwritten := { t.unwritten with opd := 0 } } = .next r ∧
      r.fec.fecRes.ok = true ∧ r.fec.fecRes.nflip = 0 ∧ r.fec.res = t.fec.res ∧
      ∀ i, i < 128 → r.fec.info.getLsbD i = (decide (i < c.k) && s.fec.opd.getLsbD i)

/-- The t-error guarantee: FEC_DECODE of a codeword with 1 to t_c wrong bits gives the codeword, and the number of bits it
flipped (40_block_fec.md R149). OPD[n−1:0] holds values. -/
def Obligations.UpToDepthErrorsAreCorrected : Prop :=
  ∀ (c : Code) (s : State) (u e : Vec), s.cfg.wf = true → c.hasTable = true →
    e.toNat < 2 ^ c.n → 1 ≤ popcount e → popcount e ≤ s.cfg.depth c →
    codeword c s.fec.opd = s.cfg.encodeWord c u ^^^ e → (∀ i, i < c.n → s.unwritten.opd.getLsbD i = false) →
    ∃ t, exec (.fecDecode c) s = .next t ∧ t.fec.fecRes.ok = true ∧ t.fec.res = s.cfg.encodeWord c u ∧
      t.fec.fecRes.nflip.toNat = popcount e ∧
      ∀ i, i < 128 → t.fec.info.getLsbD i =
        (decide (i < c.k) && (s.cfg.encodeWord c u).getLsbD (c.n - c.k + i))

/-- There are two outcomes of FEC_DECODE with a table: detected, the codeword unchanged; or corrected to a codeword at
distance NFLIP ≤ t_c (40_block_fec.md R147 (d)). -/
def Obligations.FecDecodeOutcomes : Prop :=
  ∀ (c : Code) (s t : State), s.cfg.wf = true → c.hasTable = true → exec (.fecDecode c) s = .next t →
    (t.fec.fecRes.ok = false ∧ t.fec.res = codeword c s.fec.opd ∧ t.fec.fecRes.nflip = 0) ∨
    (t.fec.fecRes.ok = true ∧ (∃ u, t.fec.res = s.cfg.encodeWord c u) ∧
      t.fec.fecRes.nflip.toNat = popcount (t.fec.res ^^^ codeword c s.fec.opd) ∧
      t.fec.fecRes.nflip.toNat ≤ s.cfg.depth c)

/-- A FEC command's outcome depends only on CODE, the OPD bits its code reads, and the configuration; SYN of a stub is the
free value, left out (40_block_fec.md R159, R147 (a)). -/
def Obligations.FecOutcomeOnlyOfOperand : Prop :=
  ∀ (c : Code) (s₁ s₂ t₁ t₂ : State), s₁.cfg = s₂.cfg →
    ((∀ i, i < c.n → s₁.fec.opd.getLsbD i = s₂.fec.opd.getLsbD i) →
      exec (.fecDecode c) s₁ = .next t₁ → exec (.fecDecode c) s₂ = .next t₂ →
      t₁.fec.res = t₂.fec.res ∧ t₁.fec.info = t₂.fec.info ∧ t₁.fec.fecRes = t₂.fec.fecRes ∧
      (c.hasTable = true → t₁.fec.syn = t₂.fec.syn)) ∧
    (c ≠ .rs2412 → (∀ i, i < c.k → s₁.fec.opd.getLsbD i = s₂.fec.opd.getLsbD i) →
      exec (.fecEncode c) s₁ = .next t₁ → exec (.fecEncode c) s₂ = .next t₂ →
      t₁.fec.res = t₂.fec.res ∧ t₁.fec.info = t₂.fec.info ∧ t₁.fec.fecRes = t₂.fec.fecRes ∧
      t₁.fec.syn = t₂.fec.syn)

/-! The Viterbi unit. -/

/-- CONV_START: PM and DP are 0 and nothing else changes, DEC, COUT and CENC among it; its word is 0x20000000, and a
nonzero reserved bit raises ERR_ILLEGAL (41_viterbi.md R181). -/
def Obligations.ConvStartState : Prop :=
  ∀ (s : State) (v : Word),
    (∃ t, exec .convStart s = .next t ∧ (∀ j, t.vit.pm.getD j 0 = 0) ∧
      t = { s with vit := { s.vit with pm := t.vit.pm, dp := 0 } } ∧ issue 0x20000000 s = .next t) ∧
    (v.extractLsb' 24 8 = 0x20 → v ≠ 0x20000000 → ∃ t, issue v s = .next t ∧ onlyErrorRecord s t 16 1 v)

/-- CONV_STEP with DP < 300: the 8 butterflies of 41_viterbi.md R182 in their 16-bit arithmetic, the 16 decisions in bits
15:0 of DEC[DP], DP one more, and nothing else. -/
def Obligations.ConvStepButterflies : Prop :=
  ∀ (s : State) (s0 s1 : BitVec 8), s.vit.dp < 300 →
    ∃ t, exec (.convStep s0 s1) s = .next t ∧
      t = { s with
        vit := { s.vit with pm := t.vit.pm, dec := t.vit.dec, dp := s.vit.dp + 1 }
        unwritten := { s.unwritten with dec := t.unwritten.dec } } ∧
      (∀ j, t.unwritten.dec.getD j 0 = if j = s.vit.dp then 0 else s.unwritten.dec.getD j 0) ∧
      (∀ j, j ≠ s.vit.dp → t.vit.dec.getD j 0 = s.vit.dec.getD j 0) ∧
      (∀ b, 16 ≤ b → (t.vit.dec.getD s.vit.dp 0).getLsbD b = false) ∧
      ∀ i, i < 8 →
        let metric : BitVec 16 := BitVec.ofNat 16
          (((s.cfg.vitBt1.getD i 0).toNat - s0.toNat : Int).natAbs +
            ((s.cfg.vitBt2.getD i 0).toNat - s1.toNat : Int).natAbs)
        let comp : BitVec 16 := s.cfg.vitM - metric
        let lo := s.vit.pm.getD i 0
        let hi := s.vit.pm.getD (i + 8) 0
        t.vit.pm.getD (2 * i) 0 = (if (hi + comp).toNat ≤ (lo + metric).toNat then hi + comp else lo + metric) ∧
        (t.vit.dec.getD s.vit.dp 0).getLsbD (2 * i) = decide ((hi + comp).toNat ≤ (lo + metric).toNat) ∧
        t.vit.pm.getD (2 * i + 1) 0 = (if (hi + metric).toNat ≤ (lo + comp).toNat then hi + metric else lo + comp) ∧
        (t.vit.dec.getD s.vit.dp 0).getLsbD (2 * i + 1) = decide ((hi + metric).toNat ≤ (lo + comp).toNat)

/-- CONV_STEP with DP = 300 raises ERR_CAP and changes nothing else (41_viterbi.md R183; 60_exceptions.md R323). -/
def Obligations.ConvStepAtCapacity : Prop :=
  ∀ (s : State) (s0 s1 : BitVec 8), s.vit.dp = 300 →
    ∃ t, exec (.convStep s0 s1) s = .next t ∧ onlyErrorRecord s t 17 2 (encode (.convStep s0 s1))

/-- CONV_CHAINBACK with n ≤ DP: the trace from state 0, with bit q of the trace read from DEC[DP−1−q] at the state's high
half and written to COUT bit n−1−q; DP drops by n; nothing else (41_viterbi.md R185, R186). The words read hold values, as
they do in every state of a running instance (R186 (e), UnwrittenReadFaults). -/
def Obligations.ConvChainbackTrace : Prop :=
  ∀ (s : State) (nbits : BitVec 9), nbits.toNat ≤ s.vit.dp →
    (∀ j, s.vit.dp - nbits.toNat ≤ j → j < s.vit.dp → s.unwritten.dec.getD j 0 = 0) →
    ∃ t, exec (.convChainback nbits) s = .next t ∧
      t = { s with
        vit := { s.vit with dp := s.vit.dp - nbits.toNat, cout := t.vit.cout }
        unwritten := { s.unwritten with cout := t.unwritten.cout } } ∧
      (∀ j, t.unwritten.cout.getLsbD j = (decide (nbits.toNat ≤ j) && s.unwritten.cout.getLsbD j)) ∧
      (∀ j, nbits.toNat ≤ j → t.vit.cout.getLsbD j = s.vit.cout.getLsbD j) ∧
      ∃ st : Nat → BitVec 8, st 0 = 0 ∧ ∀ q, q < nbits.toNat →
        let bit := (s.vit.dec.getD (s.vit.dp - 1 - q) 0).getLsbD ((st q).toNat / 16)
        st (q + 1) = ((if bit then 0x80#8 else 0#8) ||| (st q >>> 1)) ∧ t.vit.cout.getLsbD (nbits.toNat - 1 - q) = bit

/-- CONV_CHAINBACK with n > DP raises ERR_RANGE and changes nothing else (41_viterbi.md R185; 60_exceptions.md R324). -/
def Obligations.ConvChainbackBeyondDp : Prop :=
  ∀ (s : State) (nbits : BitVec 9), s.vit.dp < nbits.toNat →
    ∃ t, exec (.convChainback nbits) s = .next t ∧ onlyErrorRecord s t 18 3 (encode (.convChainback nbits))

/-- CONV_ENCODE with n ≤ 300: CENC bits 2b and 2b+1 are the two tap parities over CIN bits b, b−1, …, b−4, with zeros
before bit 0; the other CENC bits and all else are unchanged (41_viterbi.md R187). CIN[0..n−1] holds values; where
it does not, UnwrittenReadFaults says what happens. -/
def Obligations.ConvEncodeTaps : Prop :=
  ∀ (s : State) (nbits : BitVec 9), nbits.toNat ≤ 300 → (∀ i, i < nbits.toNat → s.unwritten.cin.getLsbD i = false) →
    ∃ t, exec (.convEncode nbits) s = .next t ∧
      t = { s with
        vit := { s.vit with cenc := t.vit.cenc }
        unwritten := { s.unwritten with cenc := t.unwritten.cenc } } ∧
      (∀ j, t.unwritten.cenc.getLsbD j = (decide (2 * nbits.toNat ≤ j) && s.unwritten.cenc.getLsbD j)) ∧
      (∀ j, 2 * nbits.toNat ≤ j → t.vit.cenc.getLsbD j = s.vit.cenc.getLsbD j) ∧
      ∀ b, b < nbits.toNat →
        let taps (m : BitVec 5) : Bool := decide ((List.range 5).countP (fun q =>
          m.getLsbD q && (decide (q ≤ b) && s.vit.cin.getLsbD (b - q))) % 2 = 1)
        t.vit.cenc.getLsbD (2 * b) = taps s.cfg.vitTaps1 ∧ t.vit.cenc.getLsbD (2 * b + 1) = taps s.cfg.vitTaps2

/-- CONV_ENCODE with n > 300 raises ERR_RANGE and changes nothing else (41_viterbi.md R187; 60_exceptions.md R324). -/
def Obligations.ConvEncodeBeyondCapacity : Prop :=
  ∀ (s : State) (nbits : BitVec 9), 300 < nbits.toNat →
    ∃ t, exec (.convEncode nbits) s = .next t ∧ onlyErrorRecord s t 18 3 (encode (.convEncode nbits))

/-! The trellis unit. -/

/-- TRELLIS12 follows the unique nearest next state from state 0 for m steps: through all 49, with the twelve bytes and
OK = 1; or up to a tie at step m < 49, with OK = 0, STEPS = FAIL_STEP = m, TOUT kept and EV_TRL_FAIL (42_trellis.md R211,
R212). TIN[0..97] holds values; where it does not, UnwrittenReadFaults says what happens (R213 (e)). -/
def Obligations.Trellis12Path : Prop :=
  ∀ s : State, (∀ i, i < 98 → s.unwritten.tin.getD i 0 = 0) →
    let hd (i : Nat) (st j : Dibit) : Nat :=
      popcount ((s.trl.tin.getD (2 * i) 0 ++ s.trl.tin.getD (2 * i + 1) 0) ^^^
        (s.cfg.trellisNext.getD st.toNat (Vector.replicate 4 0)).getD j.toNat 0)
    ∃ (t : State) (m : Nat) (st : Nat → Dibit), exec .trellis12 s = .next t ∧ m ≤ 49 ∧ st 0 = 0 ∧
      (∀ i, i < m → (∀ j, j ≠ st (i + 1) → hd i (st i) (st (i + 1)) < hd i (st i) j) ∧
        t.trl.tdib.getD i 0 = st (i + 1)) ∧
      (∀ i, m ≤ i → t.trl.tdib.getD i 0 = s.trl.tdib.getD i 0) ∧
      t = { s with
        trl := { s.trl with tdib := t.trl.tdib, tout := t.trl.tout, trlRes := t.trl.trlRes }
        unwritten := { s.unwritten with tdib := t.unwritten.tdib, tout := t.unwritten.tout }
        ctl := { s.ctl with sticky := t.ctl.sticky } } ∧
      (∀ i, t.unwritten.tdib.getD i 0 = if i < m then 0 else s.unwritten.tdib.getD i 0) ∧
      ((m = 49 ∧ t.ctl.sticky = s.ctl.sticky ∧ (∀ b, t.unwritten.tout.getD b 0 = 0) ∧
          t.trl.trlRes = { done := true, ok := true, steps := 49, failStep := 63 } ∧
          (∀ b, 12 ≤ b → t.trl.tout.getD b 0 = 0) ∧
          ∀ b, b < 12 → ∀ q, q < 4 →
            (t.trl.tout.getD b 0).extractLsb' (6 - 2 * q) 2 = t.trl.tdib.getD (4 * b + q) 0) ∨
        (m < 49 ∧ (∃ j j', j ≠ j' ∧ hd m (st m) j = hd m (st m) j' ∧ ∀ k, hd m (st m) j ≤ hd m (st m) k) ∧
          t.ctl.sticky = s.ctl.sticky ||| BitVec.twoPow 32 13 ∧ t.trl.tout = s.trl.tout ∧
          t.unwritten.tout = s.unwritten.tout ∧
          t.trl.trlRes = { done := true, ok := false, steps := BitVec.ofNat 6 m, failStep := BitVec.ofNat 6 m }))

/-! The sync unit and the frame path. -/

/-- Every PUSH_SYMBOL, in every SYNC_STATE, shifts the window and advances VCNT and WARM_T; beside the sync unit it may
change the capture side, the sticky bits, and the error record ERRCODE and ERRINFO (ERR_OVF, 60_exceptions.md R325), and it
leaves all else as it is (43_sync.md R233, R235, R236). -/
def Obligations.PushSymbolShiftsTheWindow : Prop :=
  ∀ (s : State) (d : Dibit), ∃ t, exec (.pushSymbol d) s = .next t ∧
    (0 < s.cfg.nW → t.sync.window.getD 0 0 = d) ∧
    (∀ j, j + 1 < s.cfg.nW → t.sync.window.getD (j + 1) 0 = s.sync.window.getD j 0) ∧
    (∀ j, s.cfg.nW ≤ j → t.sync.window.getD j 0 = 0) ∧
    t.sync.vcnt = min (s.sync.vcnt + 1) s.cfg.nW ∧
    t.sync.warmT = (if s.sync.warmT < 18 then s.sync.warmT + 1 else s.sync.warmT) ∧
    t = { s with
      ctl := { s.ctl with sticky := t.ctl.sticky, errCode := t.ctl.errCode, errInfo := t.ctl.errInfo }
      sync := t.sync
      dil := t.dil
      unwritten := { s.unwritten with din := t.unwritten.din } }

/-- A declaration: in LOOK, after the warm-up, the first entry of the table that the scan accepts is declared, whatever
later entries match (43_sync.md R236, R237, R238, R245). -/
def Obligations.FirstAcceptedEntryIsDeclared : Prop :=
  ∀ (s : State) (d : Dibit) (before after : List SyncEntry) (e : SyncEntry),
    s.sync.state = .look → 18 ≤ s.sync.warmT → s.cfg.syncTable = before ++ e :: after →
    let u := s.sync.afterSymbol s.cfg.nW d
    entryAccepted s.ctl u e = true → (∀ b ∈ before, entryAccepted s.ctl u b = false) →
    exec (.pushSymbol d) s = .next { s with
      ctl := { s.ctl with sticky := s.ctl.sticky ||| BitVec.twoPow 32 8 }
      dil := { s.dil with capPtr := 0 }
      sync := { u with
        info := { valid := true, proto := e.proto, epol := e.pol, stn := e.stn, var := e.var, rate := e.rate,
                  entry := BitVec.ofNat 8 before.length, mism := BitVec.ofNat 8 (u.mism e) }
        pol := e.pol
        state := .found
        searchCnt := 0
        sqCnt := 0
        frameCnt := BitVec.ofNat 32 e.statusPhase
        stEn := e.statusEn
        nxdnCnt := if (e.proto = 5 ∧ e.short = false) ∨ gatedOut s.ctl u before = true then 0 else u.nxdnCnt
        nxdnValid := if e.proto = 5 ∧ e.short = false then true
          else if gatedOut s.ctl u before = true then false else u.nxdnValid } }

/-- No match: in LOOK, during the warm-up or when the scan accepts no entry, SEARCH_CNT advances; at 1800 it returns to 0
with EV_NOSYNC and the per-call clear (43_sync.md R235, R237, R240, R241, R243). -/
def Obligations.NoMatchCountsTo1800 : Prop :=
  ∀ (s : State) (d : Dibit), s.sync.state = .look →
    let u := s.sync.afterSymbol s.cfg.nW d
    s.sync.warmT < 18 ∨ (∀ e ∈ s.cfg.syncTable, entryAccepted s.ctl u e = false) →
    ∃ t, exec (.pushSymbol d) s = .next t ∧
      (s.sync.searchCnt = 1799 →
        t = { s with
          ctl := { s.ctl with sticky := s.ctl.sticky ||| BitVec.twoPow 32 9 }
          sync := { u with searchCnt := 0, info := SyncInfo.zero, pol := false, nxdnValid := false, nxdnCnt := 0,
                           sqCnt := 0, frameCnt := 0, stEn := false } }) ∧
      (s.sync.searchCnt ≠ 1799 →
        t = { s with sync := { u with
          searchCnt := s.sync.searchCnt + 1
          nxdnCnt := t.sync.nxdnCnt
          nxdnValid := t.sync.nxdnValid } } ∧
        (if 18 ≤ s.sync.warmT ∧ gatedOut s.ctl u s.cfg.syncTable = true
          then t.sync.nxdnCnt = 0 ∧ t.sync.nxdnValid = false
          else t.sync.nxdnCnt = u.nxdnCnt ∧ t.sync.nxdnValid = u.nxdnValid))

/-- A frame dibit: in FOUND or LOCKED a symbol leaves LOCKED, advances FRAME_CNT, and, with the polarity corrected, is
diverted to STAT, captured in DIN, dropped with ERR_OVF, or let go (43_sync.md R236, R242; 44_deinterleave.md R288 to
R292). -/
def Obligations.FrameDibitPath : Prop :=
  ∀ (s : State) (d : Dibit), s.sync.state ≠ .look →
    let d' : Dibit := d ^^^ (if s.sync.pol then s.cfg.invMask else 0)
    let turn : Prop := s.sync.stEn = true ∧ (s.sync.frameCnt.toNat + 1) % 2 ^ 32 % 36 = 0
    ∃ t, exec (.pushSymbol d) s = .next t ∧
      t.sync = { s.sync.afterSymbol s.cfg.nW d with state := .locked, frameCnt := s.sync.frameCnt + 1 } ∧
      (turn →
        t = { s with
          sync := t.sync
          dil := { s.dil with statDibit := d', statCnt := s.dil.statCnt + 1 }
          ctl := { s.ctl with sticky := s.ctl.sticky ||| BitVec.twoPow 32 11 } }) ∧
      (¬ turn → s.ctl.ctrl.getLsbD 8 = true → s.dil.capPtr < 128 →
        t = { s with
          sync := t.sync
          dil := { s.dil with din := t.dil.din, capPtr := s.dil.capPtr + 1 }
          unwritten := { s.unwritten with din := t.unwritten.din } } ∧
        ∀ j, t.dil.din.getD j 0 = (if j = s.dil.capPtr then d' else s.dil.din.getD j 0) ∧
          t.unwritten.din.getD j 0 = if j = s.dil.capPtr then 0 else s.unwritten.din.getD j 0) ∧
      (¬ turn → s.ctl.ctrl.getLsbD 8 = true → s.dil.capPtr = 128 →
        t = { s with
          sync := t.sync
          ctl := { s.ctl with
            sticky := s.ctl.sticky ||| BitVec.twoPow 32 19, errCode := 4
            errInfo := 0x40000000 ||| d.setWidth 32 } }) ∧
      (¬ turn → s.ctl.ctrl.getLsbD 8 = false → t = { s with sync := t.sync })

/-- PUSH_SAMPLE: in LOOK or on a nonzero sample SQ_CNT is 0; on a zero sample it counts, saturating, and at a nonzero
threshold the unit returns to LOOK with EV_SQUELCH and the per-call clear (43_sync.md R243, R246, R247). -/
def Obligations.SquelchTimeout : Prop :=
  ∀ (s : State) (v : BitVec 16),
    let cnt := min (s.sync.sqCnt.toNat + 1) (2 ^ 32 - 1)
    let zero : Prop := s.sync.state ≠ .look ∧ v = 0
    let fires : Prop := s.ctl.sqThresh ≠ 0 ∧ s.ctl.sqThresh.toNat ≤ cnt
    ∃ t, exec (.pushSample v) s = .next t ∧
      (¬ zero → t = { s with sync := { s.sync with sqCnt := 0 } }) ∧
      (zero → ¬ fires → t.sync.sqCnt.toNat = cnt ∧ t = { s with sync := { s.sync with sqCnt := t.sync.sqCnt } }) ∧
      (zero → fires →
        t = { s with
          ctl := { s.ctl with sticky := s.ctl.sticky ||| BitVec.twoPow 32 10 }
          sync := { s.sync with state := .look, searchCnt := 0, info := SyncInfo.zero, pol := false,
                                nxdnValid := false, nxdnCnt := 0, sqCnt := 0, frameCnt := 0, stEn := false } })

/-- RESYNC returns to LOOK; with ABORT = 0 it keeps SYNC_INFO and the NXDN count, with ABORT = 1 it clears them too; the
window, VCNT, WARM_T, CAP_PTR, DIN and all else stay (43_sync.md R248, R249). -/
def Obligations.ResyncReturnsToLook : Prop :=
  ∀ (s : State) (abort : Bool), ∃ t, exec (.resync abort) s = .next t ∧
    t = { s with sync := { s.sync with
      state := .look, searchCnt := 0, sqCnt := 0, frameCnt := 0, pol := false, stEn := false
      info := t.sync.info, nxdnValid := t.sync.nxdnValid, nxdnCnt := t.sync.nxdnCnt } } ∧
    (abort = false → t.sync.info = s.sync.info ∧ t.sync.nxdnValid = s.sync.nxdnValid ∧
      t.sync.nxdnCnt = s.sync.nxdnCnt) ∧
    (abort = true → t.sync.info = SyncInfo.zero ∧ t.sync.nxdnValid = false ∧ t.sync.nxdnCnt = 0)

/-- SYNC_RESET: the sync unit as at power-on, STAT and CAP_PTR 0, and STATUS[5:0] = 0b000100; nothing else changes
(43_sync.md R250). -/
def Obligations.SyncResetState : Prop :=
  ∀ s : State, ∃ t, exec .syncReset s = .next t ∧
    t = { s with
      sync := t.sync
      dil := { s.dil with capPtr := 0, statDibit := 0, statCnt := 0 } } ∧
    t.sync.window.length = s.cfg.nW ∧ (∀ j, t.sync.window.getD j 0 = 0) ∧ t.sync.vcnt = 0 ∧ t.sync.warmT = 0 ∧
    t.sync.state = .look ∧ t.sync.searchCnt = 0 ∧ t.sync.nxdnValid = false ∧ t.sync.nxdnCnt = 0 ∧
    t.sync.sqCnt = 0 ∧ t.sync.info = SyncInfo.zero ∧ t.sync.pol = false ∧ t.sync.stEn = false ∧
    t.sync.frameCnt = 0 ∧ t.statusWord.extractLsb' 0 6 = 0b000100

/-! The deinterleave unit. -/

/-- DEINT of a present slot: TIN[i] is DIN[PERM_s[i]] for i < L_s; TIN above, DIN and all else are unchanged. DEINT of an
absent slot raises ERR_ILLEGAL with no other effect (44_deinterleave.md R282; 30_encoding.md R118). In the first
clause the gathered DIN elements hold values; where one does not, UnwrittenReadFaults says what happens. -/
def Obligations.DeintGathers : Prop :=
  ∀ (s : State) (slot : BitVec 3),
    let perm := s.cfg.perm.getD slot.toNat []
    (perm ≠ [] → (∀ k ∈ perm, s.unwritten.din.getD k 0 = 0) → ∃ t, exec (.deint slot) s = .next t ∧
      t = { s with
        trl := { s.trl with tin := t.trl.tin }
        unwritten := { s.unwritten with tin := t.unwritten.tin } } ∧
      ∀ i, i < 128 →
        t.trl.tin.getD i 0 =
          (if i < perm.length then s.dil.din.getD (perm.getD i 0) 0 else s.trl.tin.getD i 0) ∧
        t.unwritten.tin.getD i 0 = if i < perm.length then 0 else s.unwritten.tin.getD i 0) ∧
    (perm = [] → ∃ t, exec (.deint slot) s = .next t ∧ onlyErrorRecord s t 16 1 (0x50000000 ||| slot.setWidth 32))

/-- PACK: OPD bit b is bit b + SHR of the MSB-first concatenation of DIN[OFF .. OFF+CNT−1], where DIN[OFF+j] stands at bits
2(CNT−1−j)+1 and 2(CNT−1−j), and bits above it are 0; nothing else changes (44_deinterleave.md R283, R284). The elements
DIN[OFF .. OFF+CNT−1] hold values; where one does not, UnwrittenReadFaults says what happens (R284 (e)). -/
def Obligations.PackBits : Prop :=
  ∀ (s : State) (off cnt : BitVec 7) (shr : BitVec 4), cnt ≠ 0 → off.toNat + cnt.toNat ≤ 128 →
    (∀ j, j < cnt.toNat → s.unwritten.din.getD (off.toNat + j) 0 = 0) →
    ∃ t, exec (.pack off cnt shr) s = .next t ∧
      t = { s with fec := { s.fec with opd := t.fec.opd }, unwritten := { s.unwritten with opd := 0 } } ∧
      (∀ b, 2 * cnt.toNat ≤ b + shr.toNat → t.fec.opd.getLsbD b = false) ∧
      ∀ j, j < cnt.toNat → ∀ h, h < 2 → ∀ b, b + shr.toNat = 2 * (cnt.toNat - 1 - j) + h →
        t.fec.opd.getLsbD b = (s.dil.din.getD (off.toNat + j) 0).getLsbD h

/-- PACK with CNT = 0 or OFF + CNT > 128 raises ERR_RANGE with no other effect (44_deinterleave.md R283; 60_exceptions.md
R324). -/
def Obligations.PackOutOfRange : Prop :=
  ∀ (s : State) (off cnt : BitVec 7) (shr : BitVec 4), cnt = 0 ∨ 128 < off.toNat + cnt.toNat →
    ∃ t, exec (.pack off cnt shr) s = .next t ∧ onlyErrorRecord s t 18 3 (encode (.pack off cnt shr))

/-! The whole machine. -/

/-- Every host input is taken in one step that answers a next state, the block never traps, hangs or signals a bus error
(60_exceptions.md R320; 20_memory.md R92; 70_reset_and_hazards.md R366), except that a command which reads an element
without a value ends in the model fault UNWRITTEN, which names the command and such an element (10_state.md R62). The queue
is the model's own (log 6). -/
def Obligations.EveryInputIsTaken : Prop :=
  ∀ (s : State) (x : HostInput), (∃ t, step (s.offer x) = .next t ∧ t.pending = s.pending) ∨
    (s.rstN = true ∧ ∃ v i b k, x = cmdWrite v ∧ decode v = .ok i ∧ readsElement s i b k ∧ holdsNoValue s b k ∧
      step (s.offer x) = .fault (.unwritten i b k))

/-- A command that reads an element without a value ends in the model fault UNWRITTEN, which names the command and such an
element; any other command answers a next state (10_state.md R62; 40_block_fec.md R147 (f); 41_viterbi.md R186;
42_trellis.md R213 (e); 44_deinterleave.md R282, R284 (e)). Of several such elements the first is named, and TRELLIS12
reads all of TIN[0..97] also before a tie: the model's choices (log 18), of which only the second is said here. In a state
of a running instance CONV_CHAINBACK never reads such an element, "because n ≤ DP" (R186 (e)). -/
def Obligations.UnwrittenReadFaults : Prop :=
  ∀ (s : State) (i : Instr),
    ((∃ b k, readsElement s i b k ∧ holdsNoValue s b k) →
      ∃ b k, readsElement s i b k ∧ holdsNoValue s b k ∧ exec i s = .fault (.unwritten i b k)) ∧
    ((∀ b k, readsElement s i b k → ¬ holdsNoValue s b k) → ∃ t, exec i s = .next t) ∧
    (s.Inv → ∀ nbits, ∃ t, exec (.convChainback nbits) s = .next t)

/-- The configuration is fixed for the life of an instance (10_state.md R32). -/
def Obligations.ConfigurationNeverChanges : Prop := ∀ s t : State, step s = .next t → t.cfg = s.cfg

/-- One command sets at most one STATUS bit, the bit of one error or of one event; SOFT_RESET clears them
(60_exceptions.md R331). -/
def Obligations.OneReportPerCommand : Prop :=
  ∀ (v : Word) (s t : State), issue v s = .next t →
    (v = 0x01000000 ∧ t.ctl.sticky = 0) ∨ ∃ x, oneReport x ∧ t.ctl.sticky = s.ctl.sticky ||| x

/-- A command that fails ends with the state unchanged but for the error record; only ERR_OVF is recorded beside other
effects; a command that does not fail leaves ERRCODE, ERRINFO and the error bits (60_exceptions.md R320, R321, R325). -/
def Obligations.FailedCommandChangesNothingElse : Prop :=
  ∀ (v : Word) (s t : State), v ≠ 0x01000000 → issue v s = .next t →
    (t.ctl.errCode = s.ctl.errCode ∧ t.ctl.errInfo = s.ctl.errInfo ∧
      ∀ i, 16 ≤ i → t.ctl.sticky.getLsbD i = s.ctl.sticky.getLsbD i) ∨
    (onlyErrorRecord s t 16 1 v ∨ onlyErrorRecord s t 17 2 v ∨ onlyErrorRecord s t 18 3 v) ∨
    (v.extractLsb' 24 8 = 0x40 ∧ t.ctl.errCode = 4 ∧ t.ctl.errInfo = v ∧
      t.ctl.sticky = s.ctl.sticky ||| BitVec.twoPow 32 19)

/-- LOCKED is left only by a squelch timeout, RESYNC, SYNC_RESET, SOFT_RESET (43_sync.md R255), or a reset through RST_N. That
LOCKED is held when RST_N falls and left when it rises is the model's reading (log 8): R350 does not give SYNC_STATE while
RST_N is 0. -/
def Obligations.LockedIsLeftOnlyByReturns : Prop :=
  ∀ s t : State, s.sync.state = .locked → step s = .next t →
    t.sync.state = .locked ∨
    (t.sync.state = .look ∧
      ((s.rstN = false ∧ s.pending.head? = some .resetHigh) ∨
       (s.rstN = true ∧ ∃ v i, s.pending.head? = some (cmdWrite v) ∧ decode v = .ok i ∧
         (i = .softReset ∨ i = .syncReset ∨ (∃ a, i = .resync a) ∨
           (i = .pushSample 0 ∧ t.ctl.sticky.getLsbD 10 = true)))))

/-- LOOK is left only by a declaration, which needs 18 symbols since the last reset, and sets EV_SYNC and FOUND
(43_sync.md R235, R242, R252; 70_reset_and_hazards.md R353). -/
def Obligations.LookIsLeftOnlyByDeclaration : Prop :=
  ∀ s t : State, s.sync.state = .look → step s = .next t → t.sync.state ≠ .look →
    t.sync.state = .found ∧ ¬ s.sync.warmT < 18 ∧ t.ctl.sticky.getLsbD 8 = true ∧ t.sync.info.valid = true ∧
      ∃ v d, s.pending.head? = some (cmdWrite v) ∧ decode v = .ok (.pushSymbol d)

/-- The invariant of an instance's states (Sys2Proof/Safety.lean): every step keeps it. -/
def Obligations.StepKeepsInvariant : Prop := ∀ s t : State, s.Inv → step s = .next t → t.Inv

/-- The state after reset meets the invariant, and so does the power-on state of every valid configuration with any
contents of the unspecified buffers (70_reset_and_hazards.md R351). -/
def Obligations.ResetMeetsInvariant : Prop :=
  State.reset.Inv ∧ ∀ (cfg : Cfg) (b : PowerOnBuffers), cfg.wf = true → (State.powerOn cfg b).Inv
end

