-- ==== Sys2Proof/Laws/Bits.lean ====
section
/-! SUPPORT. What the bit operations of Machine/Operands.lean and the slices of Machine/Parameters.lean do, bit by bit. -/

namespace Sys2Proof.Machine

theorem getLsbD_foldr_twoPow {w : Nat} (f : Nat → Bool) (l : List Nat) (i : Nat) :
    (l.foldr (fun i v => if f i then v ||| BitVec.twoPow w i else v) 0#w).getLsbD i =
      (decide (i < w) && (decide (i ∈ l) && f i)) := by
  induction l with
  | nil => simp
  | cons a l ih =>
    simp only [List.foldr_cons]
    by_cases hia : i = a
    · subst hia
      by_cases hf : f i = true
      · simp [hf, ih]
        by_cases hw : i < w <;> simp [hw]
      · simp [hf, ih]
    · by_cases hf : f a = true
      · simp [hf, ih, hia, BitVec.getLsbD_twoPow, Ne.symm hia]
      · simp [hf, ih, hia]

/-- Bit i of ofBits is f i. -/
@[simp] theorem getLsbD_ofBits (w : Nat) (f : Nat → Bool) (i : Nat) :
    (ofBits w f).getLsbD i = (decide (i < w) && f i) := by
  unfold ofBits
  rw [show (0 : BitVec w) = 0#w from rfl, getLsbD_foldr_twoPow]
  by_cases h : i < w <;> simp [h]

/-- Setting a bit changes that bit, if it lies in the vector, and no other. -/
theorem getLsbD_setBit {w : Nat} (v : BitVec w) (i j : Nat) (b : Bool) :
    (setBit v i b).getLsbD j = if i = j ∧ j < w then b else v.getLsbD j := by
  unfold setBit
  by_cases hw : j < w
  · by_cases hij : i = j
    · subst hij
      cases b <;> simp [hw, -BitVec.getLsbD_eq_getElem]
    · cases b <;> simp [hw, hij, -BitVec.getLsbD_eq_getElem]
  · have h : w ≤ j := Nat.le_of_not_lt hw
    cases b <;> simp [hw, BitVec.getLsbD_of_ge _ _ h, -BitVec.getLsbD_eq_getElem]

/-- Bit i of v[lo+len−1 : lo] extended to m bits. -/
@[simp] theorem getLsbD_slice {w : Nat} (m : Nat) (v : BitVec w) (lo len i : Nat) :
    (slice m v lo len).getLsbD i = (decide (i < m) && (decide (i < len) && v.getLsbD (lo + i))) := by
  simp [slice]

/-- Bit i of bus word j of a vector (20_memory.md R83). -/
@[simp] theorem getLsbD_vecWord {w : Nat} (v : BitVec w) (j i : Nat) :
    (vecWord v j).getLsbD i = (decide (i < 32) && v.getLsbD (32 * j + i)) := by
  simp [vecWord]

/-- Replacing bus word j of a vector replaces the bits 32j .. 32j+31 and no other. -/
theorem getLsbD_setVecWord {w : Nat} (v : BitVec w) (j : Nat) (x : Word) (i : Nat) :
    (setVecWord v j x).getLsbD i =
      if 32 * j ≤ i ∧ i < 32 * j + 32 ∧ i < w then x.getLsbD (i - 32 * j) else v.getLsbD i := by
  unfold setVecWord
  by_cases hw : i < w
  · by_cases hlo : 32 * j ≤ i
    · have h2 : ¬ i < 32 * j := by omega
      by_cases hhi : i < 32 * j + 32
      · have h1 : i - 32 * j < 32 := by omega
        have h3 : i - 32 * j < w := by omega
        simp [hw, hlo, hhi, h1, h2, h3, -BitVec.getLsbD_eq_getElem, -BitVec.reduceAllOnes]
      · have h1 : ¬ i - 32 * j < 32 := by omega
        have h4 : 32 ≤ i - 32 * j := by omega
        simp [hw, hlo, hhi, h1, BitVec.getLsbD_of_ge x _ h4, -BitVec.getLsbD_eq_getElem, -BitVec.reduceAllOnes]
    · have h2 : i < 32 * j := by omega
      simp [hw, hlo, h2, -BitVec.getLsbD_eq_getElem]
  · have h : w ≤ i := Nat.le_of_not_lt hw
    simp [hw, BitVec.getLsbD_of_ge _ _ h]

/-- The stream place map is its own inverse on a bus word. -/
theorem streamLane_streamLane {i : Nat} (_ : i < 32) : streamLane (streamLane i) = i := by
  unfold streamLane; omega

theorem streamLane_lt {i : Nat} (h : i < 32) : streamLane i < 32 := by
  unfold streamLane; omega

/-- Swapping a word into stream order and back gives the word. -/
@[simp] theorem streamSwap_streamSwap (x : Word) : streamSwap (streamSwap x) = x := by
  apply BitVec.eq_of_getLsbD_eq
  intro i hi
  simp only [streamSwap, getLsbD_ofBits, hi, streamLane_lt hi, streamLane_streamLane hi, decide_true, Bool.true_and]

/-- Bit b of lane l of a bus word is bit b of the lane's byte (20_memory.md R83). -/
theorem getLsbD_laneWord (f : Nat → Byte) (j l b : Nat) (hl : l < 4) (hb : b < 8) :
    (laneWord f j).getLsbD (8 * l + b) = (f (4 * j + l)).getLsbD b := by
  unfold laneWord
  rw [BitVec.getLsbD_append, BitVec.getLsbD_append, BitVec.getLsbD_append]
  have : l = 0 ∨ l = 1 ∨ l = 2 ∨ l = 3 := by omega
  rcases this with rfl | rfl | rfl | rfl
  · rw [if_pos (by omega)]; simp
  · rw [if_neg (by omega), if_pos (by omega)]; congr 1; omega
  · rw [if_neg (by omega), if_neg (by omega), if_pos (by omega)]; congr 1; omega
  · rw [if_neg (by omega), if_neg (by omega), if_neg (by omega)]; congr 1; omega

/-- Bit b of lane l of a dibit word is bit b of that dibit, and 0 above it (20_memory.md R88). -/
theorem getLsbD_dibitWord {n : Nat} (v : Vector Dibit n) (j l b : Nat) (hl : l < 4) (hb : b < 8) :
    (dibitWord v j).getLsbD (8 * l + b) = (v.getD (4 * j + l) 0).getLsbD b := by
  unfold dibitWord; rw [getLsbD_laneWord _ _ _ _ hl hb, BitVec.getLsbD_setWidth]; simp [hb]

/-- Stream bit b of lane l of a bus word is bit 7 − b of the lane (10_state.md R49). -/
theorem getLsbD_streamWord {w : Nat} (v : BitVec w) (j l b : Nat) (hl : l < 4) (hb : b < 8) :
    (streamWord v j).getLsbD (8 * l + (7 - b)) = v.getLsbD (8 * (4 * j + l) + b) := by
  unfold streamWord streamSwap
  rw [getLsbD_ofBits, getLsbD_vecWord]
  unfold streamLane
  rw [show 8 * ((8 * l + (7 - b)) / 8) + (7 - (8 * l + (7 - b)) % 8) = 8 * l + b by omega,
    show 32 * j + (8 * l + b) = 8 * (4 * j + l) + b by omega]
  simp [show 8 * l + (7 - b) < 32 by omega, show 8 * l + b < 32 by omega]

/-- Bit i of the window readout is bit i mod 2 of W[i div 2]. -/
theorem getLsbD_windowVec (window : List Dibit) (i : Nat) :
    (windowVec window).getLsbD i = (decide (i < 128) && (window.getD (i / 2) 0).getLsbD (i % 2)) := by
  simp [windowVec]

/-- Setting an element of a vector leaves the others. -/
theorem getD_setIfInBounds_ne {α : Type} {n : Nat} (v : Vector α n) (i j : Nat) (x d : α) (h : i ≠ j) :
    (v.setIfInBounds i x).getD j d = v.getD j d := by
  by_cases hj : j < n <;> simp [Vector.getD, Array.getD, hj, h]

/-- Setting an element that exists gives it the value. -/
theorem getD_setIfInBounds_self {α : Type} {n : Nat} (v : Vector α n) (i : Nat) (x d : α) (h : i < n) :
    (v.setIfInBounds i x).getD i d = x := by
  simp [Vector.getD, Array.getD, h]

/-- Clearing the n low bits clears those and no other. -/
theorem getLsbD_clearBelow {w : Nat} (v : BitVec w) (n i : Nat) :
    (clearBelow v n).getLsbD i = (decide (n ≤ i) && v.getLsbD i) := by
  unfold clearBelow
  by_cases hw : i < w
  · by_cases h : n ≤ i
    · simp [hw, h, Nat.not_lt.mpr h, Nat.add_sub_cancel' h, -BitVec.getLsbD_eq_getElem]
    · simp [hw, h, Nat.lt_of_not_le h]
  · simp [BitVec.getLsbD_of_ge _ _ (Nat.le_of_not_lt hw)]

/-- The elements of a vector given by a function. -/
theorem getD_ofFn {α : Type} {n : Nat} (f : Fin n → α) (i : Nat) (d : α) :
    (Vector.ofFn f).getD i d = if h : i < n then f ⟨i, h⟩ else d := by
  simp [Vector.getD, Array.getD]

/-- Clearing the first m elements clears those and no other. -/
theorem getD_clearFirst {w n : Nat} (v : Vector (BitVec w) n) (m i : Nat) :
    (clearFirst v m).getD i 0 = if i < m then 0 else v.getD i 0 := by
  unfold clearFirst
  rw [getD_ofFn]
  by_cases h : i < n
  · simp [h]
  · simp [h, Vector.getD, Array.getD]

end Sys2Proof.Machine
end

