-- ==== Sys2Proof/Laws/State.lean ====
section
/-! SUPPORT. What each named update of State changes and what it leaves, one lemma per field (Machine/Ops.lean). -/

namespace Sys2Proof.Machine

@[simp] theorem State.setCtl_cfg (s : State) (x : Control) : (s.setCtl x).cfg = s.cfg := rfl
@[simp] theorem State.setCtl_ctl (s : State) (x : Control) : (s.setCtl x).ctl = x := rfl
@[simp] theorem State.setCtl_fec (s : State) (x : Control) : (s.setCtl x).fec = s.fec := rfl
@[simp] theorem State.setCtl_vit (s : State) (x : Control) : (s.setCtl x).vit = s.vit := rfl
@[simp] theorem State.setCtl_trl (s : State) (x : Control) : (s.setCtl x).trl = s.trl := rfl
@[simp] theorem State.setCtl_sync (s : State) (x : Control) : (s.setCtl x).sync = s.sync := rfl
@[simp] theorem State.setCtl_dil (s : State) (x : Control) : (s.setCtl x).dil = s.dil := rfl
@[simp] theorem State.setCtl_rstN (s : State) (x : Control) : (s.setCtl x).rstN = s.rstN := rfl
@[simp] theorem State.setCtl_unwritten (s : State) (x : Control) : (s.setCtl x).unwritten = s.unwritten := rfl
@[simp] theorem State.setCtl_pending (s : State) (x : Control) : (s.setCtl x).pending = s.pending := rfl
@[simp] theorem State.setCtl_rdata (s : State) (x : Control) : (s.setCtl x).rdata = s.rdata := rfl
@[simp] theorem State.setCtl_draws (s : State) (x : Control) : (s.setCtl x).draws = s.draws := rfl

@[simp] theorem State.setFec_cfg (s : State) (x : FecUnit) : (s.setFec x).cfg = s.cfg := rfl
@[simp] theorem State.setFec_ctl (s : State) (x : FecUnit) : (s.setFec x).ctl = s.ctl := rfl
@[simp] theorem State.setFec_fec (s : State) (x : FecUnit) : (s.setFec x).fec = x := rfl
@[simp] theorem State.setFec_vit (s : State) (x : FecUnit) : (s.setFec x).vit = s.vit := rfl
@[simp] theorem State.setFec_trl (s : State) (x : FecUnit) : (s.setFec x).trl = s.trl := rfl
@[simp] theorem State.setFec_sync (s : State) (x : FecUnit) : (s.setFec x).sync = s.sync := rfl
@[simp] theorem State.setFec_dil (s : State) (x : FecUnit) : (s.setFec x).dil = s.dil := rfl
@[simp] theorem State.setFec_rstN (s : State) (x : FecUnit) : (s.setFec x).rstN = s.rstN := rfl
@[simp] theorem State.setFec_unwritten (s : State) (x : FecUnit) : (s.setFec x).unwritten = s.unwritten := rfl
@[simp] theorem State.setFec_pending (s : State) (x : FecUnit) : (s.setFec x).pending = s.pending := rfl
@[simp] theorem State.setFec_rdata (s : State) (x : FecUnit) : (s.setFec x).rdata = s.rdata := rfl
@[simp] theorem State.setFec_draws (s : State) (x : FecUnit) : (s.setFec x).draws = s.draws := rfl

@[simp] theorem State.setVit_cfg (s : State) (x : VitUnit) : (s.setVit x).cfg = s.cfg := rfl
@[simp] theorem State.setVit_ctl (s : State) (x : VitUnit) : (s.setVit x).ctl = s.ctl := rfl
@[simp] theorem State.setVit_fec (s : State) (x : VitUnit) : (s.setVit x).fec = s.fec := rfl
@[simp] theorem State.setVit_vit (s : State) (x : VitUnit) : (s.setVit x).vit = x := rfl
@[simp] theorem State.setVit_trl (s : State) (x : VitUnit) : (s.setVit x).trl = s.trl := rfl
@[simp] theorem State.setVit_sync (s : State) (x : VitUnit) : (s.setVit x).sync = s.sync := rfl
@[simp] theorem State.setVit_dil (s : State) (x : VitUnit) : (s.setVit x).dil = s.dil := rfl
@[simp] theorem State.setVit_rstN (s : State) (x : VitUnit) : (s.setVit x).rstN = s.rstN := rfl
@[simp] theorem State.setVit_unwritten (s : State) (x : VitUnit) : (s.setVit x).unwritten = s.unwritten := rfl
@[simp] theorem State.setVit_pending (s : State) (x : VitUnit) : (s.setVit x).pending = s.pending := rfl
@[simp] theorem State.setVit_rdata (s : State) (x : VitUnit) : (s.setVit x).rdata = s.rdata := rfl
@[simp] theorem State.setVit_draws (s : State) (x : VitUnit) : (s.setVit x).draws = s.draws := rfl

@[simp] theorem State.setTrl_cfg (s : State) (x : TrlUnit) : (s.setTrl x).cfg = s.cfg := rfl
@[simp] theorem State.setTrl_ctl (s : State) (x : TrlUnit) : (s.setTrl x).ctl = s.ctl := rfl
@[simp] theorem State.setTrl_fec (s : State) (x : TrlUnit) : (s.setTrl x).fec = s.fec := rfl
@[simp] theorem State.setTrl_vit (s : State) (x : TrlUnit) : (s.setTrl x).vit = s.vit := rfl
@[simp] theorem State.setTrl_trl (s : State) (x : TrlUnit) : (s.setTrl x).trl = x := rfl
@[simp] theorem State.setTrl_sync (s : State) (x : TrlUnit) : (s.setTrl x).sync = s.sync := rfl
@[simp] theorem State.setTrl_dil (s : State) (x : TrlUnit) : (s.setTrl x).dil = s.dil := rfl
@[simp] theorem State.setTrl_rstN (s : State) (x : TrlUnit) : (s.setTrl x).rstN = s.rstN := rfl
@[simp] theorem State.setTrl_unwritten (s : State) (x : TrlUnit) : (s.setTrl x).unwritten = s.unwritten := rfl
@[simp] theorem State.setTrl_pending (s : State) (x : TrlUnit) : (s.setTrl x).pending = s.pending := rfl
@[simp] theorem State.setTrl_rdata (s : State) (x : TrlUnit) : (s.setTrl x).rdata = s.rdata := rfl
@[simp] theorem State.setTrl_draws (s : State) (x : TrlUnit) : (s.setTrl x).draws = s.draws := rfl

@[simp] theorem State.setSync_cfg (s : State) (x : SyncUnit) : (s.setSync x).cfg = s.cfg := rfl
@[simp] theorem State.setSync_ctl (s : State) (x : SyncUnit) : (s.setSync x).ctl = s.ctl := rfl
@[simp] theorem State.setSync_fec (s : State) (x : SyncUnit) : (s.setSync x).fec = s.fec := rfl
@[simp] theorem State.setSync_vit (s : State) (x : SyncUnit) : (s.setSync x).vit = s.vit := rfl
@[simp] theorem State.setSync_trl (s : State) (x : SyncUnit) : (s.setSync x).trl = s.trl := rfl
@[simp] theorem State.setSync_sync (s : State) (x : SyncUnit) : (s.setSync x).sync = x := rfl
@[simp] theorem State.setSync_dil (s : State) (x : SyncUnit) : (s.setSync x).dil = s.dil := rfl
@[simp] theorem State.setSync_rstN (s : State) (x : SyncUnit) : (s.setSync x).rstN = s.rstN := rfl
@[simp] theorem State.setSync_unwritten (s : State) (x : SyncUnit) : (s.setSync x).unwritten = s.unwritten := rfl
@[simp] theorem State.setSync_pending (s : State) (x : SyncUnit) : (s.setSync x).pending = s.pending := rfl
@[simp] theorem State.setSync_rdata (s : State) (x : SyncUnit) : (s.setSync x).rdata = s.rdata := rfl
@[simp] theorem State.setSync_draws (s : State) (x : SyncUnit) : (s.setSync x).draws = s.draws := rfl

@[simp] theorem State.setDil_cfg (s : State) (x : DilUnit) : (s.setDil x).cfg = s.cfg := rfl
@[simp] theorem State.setDil_ctl (s : State) (x : DilUnit) : (s.setDil x).ctl = s.ctl := rfl
@[simp] theorem State.setDil_fec (s : State) (x : DilUnit) : (s.setDil x).fec = s.fec := rfl
@[simp] theorem State.setDil_vit (s : State) (x : DilUnit) : (s.setDil x).vit = s.vit := rfl
@[simp] theorem State.setDil_trl (s : State) (x : DilUnit) : (s.setDil x).trl = s.trl := rfl
@[simp] theorem State.setDil_sync (s : State) (x : DilUnit) : (s.setDil x).sync = s.sync := rfl
@[simp] theorem State.setDil_dil (s : State) (x : DilUnit) : (s.setDil x).dil = x := rfl
@[simp] theorem State.setDil_rstN (s : State) (x : DilUnit) : (s.setDil x).rstN = s.rstN := rfl
@[simp] theorem State.setDil_unwritten (s : State) (x : DilUnit) : (s.setDil x).unwritten = s.unwritten := rfl
@[simp] theorem State.setDil_pending (s : State) (x : DilUnit) : (s.setDil x).pending = s.pending := rfl
@[simp] theorem State.setDil_rdata (s : State) (x : DilUnit) : (s.setDil x).rdata = s.rdata := rfl
@[simp] theorem State.setDil_draws (s : State) (x : DilUnit) : (s.setDil x).draws = s.draws := rfl

@[simp] theorem State.setUnwritten_cfg (s : State) (x : Buffers) : (s.setUnwritten x).cfg = s.cfg := rfl
@[simp] theorem State.setUnwritten_ctl (s : State) (x : Buffers) : (s.setUnwritten x).ctl = s.ctl := rfl
@[simp] theorem State.setUnwritten_fec (s : State) (x : Buffers) : (s.setUnwritten x).fec = s.fec := rfl
@[simp] theorem State.setUnwritten_vit (s : State) (x : Buffers) : (s.setUnwritten x).vit = s.vit := rfl
@[simp] theorem State.setUnwritten_trl (s : State) (x : Buffers) : (s.setUnwritten x).trl = s.trl := rfl
@[simp] theorem State.setUnwritten_sync (s : State) (x : Buffers) : (s.setUnwritten x).sync = s.sync := rfl
@[simp] theorem State.setUnwritten_dil (s : State) (x : Buffers) : (s.setUnwritten x).dil = s.dil := rfl
@[simp] theorem State.setUnwritten_unwritten (s : State) (x : Buffers) : (s.setUnwritten x).unwritten = x := rfl
@[simp] theorem State.setUnwritten_rstN (s : State) (x : Buffers) : (s.setUnwritten x).rstN = s.rstN := rfl
@[simp] theorem State.setUnwritten_pending (s : State) (x : Buffers) : (s.setUnwritten x).pending = s.pending := rfl
@[simp] theorem State.setUnwritten_rdata (s : State) (x : Buffers) : (s.setUnwritten x).rdata = s.rdata := rfl
@[simp] theorem State.setUnwritten_draws (s : State) (x : Buffers) : (s.setUnwritten x).draws = s.draws := rfl

@[simp] theorem State.setRstN_cfg (s : State) (x : Bool) : (s.setRstN x).cfg = s.cfg := rfl
@[simp] theorem State.setRstN_ctl (s : State) (x : Bool) : (s.setRstN x).ctl = s.ctl := rfl
@[simp] theorem State.setRstN_fec (s : State) (x : Bool) : (s.setRstN x).fec = s.fec := rfl
@[simp] theorem State.setRstN_vit (s : State) (x : Bool) : (s.setRstN x).vit = s.vit := rfl
@[simp] theorem State.setRstN_trl (s : State) (x : Bool) : (s.setRstN x).trl = s.trl := rfl
@[simp] theorem State.setRstN_sync (s : State) (x : Bool) : (s.setRstN x).sync = s.sync := rfl
@[simp] theorem State.setRstN_dil (s : State) (x : Bool) : (s.setRstN x).dil = s.dil := rfl
@[simp] theorem State.setRstN_rstN (s : State) (x : Bool) : (s.setRstN x).rstN = x := rfl
@[simp] theorem State.setRstN_unwritten (s : State) (x : Bool) : (s.setRstN x).unwritten = s.unwritten := rfl
@[simp] theorem State.setRstN_pending (s : State) (x : Bool) : (s.setRstN x).pending = s.pending := rfl
@[simp] theorem State.setRstN_rdata (s : State) (x : Bool) : (s.setRstN x).rdata = s.rdata := rfl
@[simp] theorem State.setRstN_draws (s : State) (x : Bool) : (s.setRstN x).draws = s.draws := rfl

@[simp] theorem State.setPending_cfg (s : State) (x : List HostInput) : (s.setPending x).cfg = s.cfg := rfl
@[simp] theorem State.setPending_ctl (s : State) (x : List HostInput) : (s.setPending x).ctl = s.ctl := rfl
@[simp] theorem State.setPending_fec (s : State) (x : List HostInput) : (s.setPending x).fec = s.fec := rfl
@[simp] theorem State.setPending_vit (s : State) (x : List HostInput) : (s.setPending x).vit = s.vit := rfl
@[simp] theorem State.setPending_trl (s : State) (x : List HostInput) : (s.setPending x).trl = s.trl := rfl
@[simp] theorem State.setPending_sync (s : State) (x : List HostInput) : (s.setPending x).sync = s.sync := rfl
@[simp] theorem State.setPending_dil (s : State) (x : List HostInput) : (s.setPending x).dil = s.dil := rfl
@[simp] theorem State.setPending_rstN (s : State) (x : List HostInput) : (s.setPending x).rstN = s.rstN := rfl
@[simp] theorem State.setPending_unwritten (s : State) (x : List HostInput) : (s.setPending x).unwritten = s.unwritten := rfl
@[simp] theorem State.setPending_pending (s : State) (x : List HostInput) : (s.setPending x).pending = x := rfl
@[simp] theorem State.setPending_rdata (s : State) (x : List HostInput) : (s.setPending x).rdata = s.rdata := rfl
@[simp] theorem State.setPending_draws (s : State) (x : List HostInput) : (s.setPending x).draws = s.draws := rfl

@[simp] theorem State.setRdata_cfg (s : State) (x : Word) : (s.setRdata x).cfg = s.cfg := rfl
@[simp] theorem State.setRdata_ctl (s : State) (x : Word) : (s.setRdata x).ctl = s.ctl := rfl
@[simp] theorem State.setRdata_fec (s : State) (x : Word) : (s.setRdata x).fec = s.fec := rfl
@[simp] theorem State.setRdata_vit (s : State) (x : Word) : (s.setRdata x).vit = s.vit := rfl
@[simp] theorem State.setRdata_trl (s : State) (x : Word) : (s.setRdata x).trl = s.trl := rfl
@[simp] theorem State.setRdata_sync (s : State) (x : Word) : (s.setRdata x).sync = s.sync := rfl
@[simp] theorem State.setRdata_dil (s : State) (x : Word) : (s.setRdata x).dil = s.dil := rfl
@[simp] theorem State.setRdata_rstN (s : State) (x : Word) : (s.setRdata x).rstN = s.rstN := rfl
@[simp] theorem State.setRdata_unwritten (s : State) (x : Word) : (s.setRdata x).unwritten = s.unwritten := rfl
@[simp] theorem State.setRdata_pending (s : State) (x : Word) : (s.setRdata x).pending = s.pending := rfl
@[simp] theorem State.setRdata_rdata (s : State) (x : Word) : (s.setRdata x).rdata = x := rfl
@[simp] theorem State.setRdata_draws (s : State) (x : Word) : (s.setRdata x).draws = s.draws := rfl

@[simp] theorem State.setDraws_cfg (s : State) (x : Nat) : (s.setDraws x).cfg = s.cfg := rfl
@[simp] theorem State.setDraws_ctl (s : State) (x : Nat) : (s.setDraws x).ctl = s.ctl := rfl
@[simp] theorem State.setDraws_fec (s : State) (x : Nat) : (s.setDraws x).fec = s.fec := rfl
@[simp] theorem State.setDraws_vit (s : State) (x : Nat) : (s.setDraws x).vit = s.vit := rfl
@[simp] theorem State.setDraws_trl (s : State) (x : Nat) : (s.setDraws x).trl = s.trl := rfl
@[simp] theorem State.setDraws_sync (s : State) (x : Nat) : (s.setDraws x).sync = s.sync := rfl
@[simp] theorem State.setDraws_dil (s : State) (x : Nat) : (s.setDraws x).dil = s.dil := rfl
@[simp] theorem State.setDraws_rstN (s : State) (x : Nat) : (s.setDraws x).rstN = s.rstN := rfl
@[simp] theorem State.setDraws_unwritten (s : State) (x : Nat) : (s.setDraws x).unwritten = s.unwritten := rfl
@[simp] theorem State.setDraws_pending (s : State) (x : Nat) : (s.setDraws x).pending = s.pending := rfl
@[simp] theorem State.setDraws_rdata (s : State) (x : Nat) : (s.setDraws x).rdata = s.rdata := rfl
@[simp] theorem State.setDraws_draws (s : State) (x : Nat) : (s.setDraws x).draws = x := rfl

/-! The error record and the events: the global part changes in its error fields and sticky bits only. -/

@[simp] theorem State.recordError_cfg (s : State) (e : ErrKind) (v : Word) : (s.recordError e v).cfg = s.cfg := rfl
@[simp] theorem State.signal_cfg (s : State) (e : Event) : (s.signal e).cfg = s.cfg := rfl
@[simp] theorem State.signalIf_cfg (s : State) (b : Bool) (e : Event) : (s.signalIf b e).cfg = s.cfg := by
  cases b <;> rfl
@[simp] theorem State.recordError_fec (s : State) (e : ErrKind) (v : Word) : (s.recordError e v).fec = s.fec := rfl
@[simp] theorem State.signal_fec (s : State) (e : Event) : (s.signal e).fec = s.fec := rfl
@[simp] theorem State.signalIf_fec (s : State) (b : Bool) (e : Event) : (s.signalIf b e).fec = s.fec := by
  cases b <;> rfl
@[simp] theorem State.recordError_vit (s : State) (e : ErrKind) (v : Word) : (s.recordError e v).vit = s.vit := rfl
@[simp] theorem State.signal_vit (s : State) (e : Event) : (s.signal e).vit = s.vit := rfl
@[simp] theorem State.signalIf_vit (s : State) (b : Bool) (e : Event) : (s.signalIf b e).vit = s.vit := by
  cases b <;> rfl
@[simp] theorem State.recordError_trl (s : State) (e : ErrKind) (v : Word) : (s.recordError e v).trl = s.trl := rfl
@[simp] theorem State.signal_trl (s : State) (e : Event) : (s.signal e).trl = s.trl := rfl
@[simp] theorem State.signalIf_trl (s : State) (b : Bool) (e : Event) : (s.signalIf b e).trl = s.trl := by
  cases b <;> rfl
@[simp] theorem State.recordError_sync (s : State) (e : ErrKind) (v : Word) : (s.recordError e v).sync = s.sync := rfl
@[simp] theorem State.signal_sync (s : State) (e : Event) : (s.signal e).sync = s.sync := rfl
@[simp] theorem State.signalIf_sync (s : State) (b : Bool) (e : Event) : (s.signalIf b e).sync = s.sync := by
  cases b <;> rfl
@[simp] theorem State.recordError_dil (s : State) (e : ErrKind) (v : Word) : (s.recordError e v).dil = s.dil := rfl
@[simp] theorem State.signal_dil (s : State) (e : Event) : (s.signal e).dil = s.dil := rfl
@[simp] theorem State.signalIf_dil (s : State) (b : Bool) (e : Event) : (s.signalIf b e).dil = s.dil := by
  cases b <;> rfl
@[simp] theorem State.recordError_rstN (s : State) (e : ErrKind) (v : Word) : (s.recordError e v).rstN = s.rstN := rfl
@[simp] theorem State.recordError_unwritten (s : State) (e : ErrKind) (v : Word) : (s.recordError e v).unwritten = s.unwritten := rfl
@[simp] theorem State.signal_rstN (s : State) (e : Event) : (s.signal e).rstN = s.rstN := rfl
@[simp] theorem State.signal_unwritten (s : State) (e : Event) : (s.signal e).unwritten = s.unwritten := rfl
@[simp] theorem State.signalIf_rstN (s : State) (b : Bool) (e : Event) : (s.signalIf b e).rstN = s.rstN := by
  cases b <;> rfl
@[simp] theorem State.signalIf_unwritten (s : State) (b : Bool) (e : Event) : (s.signalIf b e).unwritten = s.unwritten := by
  cases b <;> rfl
@[simp] theorem State.recordError_pending (s : State) (e : ErrKind) (v : Word) : (s.recordError e v).pending = s.pending := rfl
@[simp] theorem State.signal_pending (s : State) (e : Event) : (s.signal e).pending = s.pending := rfl
@[simp] theorem State.signalIf_pending (s : State) (b : Bool) (e : Event) : (s.signalIf b e).pending = s.pending := by
  cases b <;> rfl
@[simp] theorem State.recordError_rdata (s : State) (e : ErrKind) (v : Word) : (s.recordError e v).rdata = s.rdata := rfl
@[simp] theorem State.signal_rdata (s : State) (e : Event) : (s.signal e).rdata = s.rdata := rfl
@[simp] theorem State.signalIf_rdata (s : State) (b : Bool) (e : Event) : (s.signalIf b e).rdata = s.rdata := by
  cases b <;> rfl
@[simp] theorem State.recordError_draws (s : State) (e : ErrKind) (v : Word) : (s.recordError e v).draws = s.draws := rfl
@[simp] theorem State.signal_draws (s : State) (e : Event) : (s.signal e).draws = s.draws := rfl
@[simp] theorem State.signalIf_draws (s : State) (b : Bool) (e : Event) : (s.signalIf b e).draws = s.draws := by
  cases b <;> rfl

@[simp] theorem State.recordError_ctl (s : State) (e : ErrKind) (v : Word) :
    (s.recordError e v).ctl =
      { s.ctl with sticky := s.ctl.sticky ||| BitVec.twoPow 32 e.bit, errCode := e.code, errInfo := v } := rfl

@[simp] theorem State.signal_ctl (s : State) (e : Event) :
    (s.signal e).ctl = { s.ctl with sticky := s.ctl.sticky ||| BitVec.twoPow 32 e.bit } := rfl

theorem State.signalIf_ctl (s : State) (b : Bool) (e : Event) :
    (s.signalIf b e).ctl =
      { s.ctl with sticky := if b then s.ctl.sticky ||| BitVec.twoPow 32 e.bit else s.ctl.sticky } := by
  cases b <;> rfl

@[simp] theorem State.signalIf_true (s : State) (e : Event) : s.signalIf true e = s.signal e := rfl

@[simp] theorem State.signalIf_false (s : State) (e : Event) : s.signalIf false e = s := rfl

@[simp] theorem State.advanceDraws_draws (s : State) : s.advanceDraws.draws = s.draws + 1 := rfl

@[simp] theorem State.advanceDraws_cfg (s : State) : s.advanceDraws.cfg = s.cfg := rfl
@[simp] theorem State.advanceDraws_ctl (s : State) : s.advanceDraws.ctl = s.ctl := rfl
@[simp] theorem State.advanceDraws_fec (s : State) : s.advanceDraws.fec = s.fec := rfl
@[simp] theorem State.advanceDraws_vit (s : State) : s.advanceDraws.vit = s.vit := rfl
@[simp] theorem State.advanceDraws_trl (s : State) : s.advanceDraws.trl = s.trl := rfl
@[simp] theorem State.advanceDraws_sync (s : State) : s.advanceDraws.sync = s.sync := rfl
@[simp] theorem State.advanceDraws_dil (s : State) : s.advanceDraws.dil = s.dil := rfl
@[simp] theorem State.advanceDraws_rstN (s : State) : s.advanceDraws.rstN = s.rstN := rfl
@[simp] theorem State.advanceDraws_unwritten (s : State) : s.advanceDraws.unwritten = s.unwritten := rfl
@[simp] theorem State.advanceDraws_pending (s : State) : s.advanceDraws.pending = s.pending := rfl
@[simp] theorem State.advanceDraws_rdata (s : State) : s.advanceDraws.rdata = s.rdata := rfl

/-! The buffers written by an FEC command. -/

@[simp] theorem State.markFec_cfg (s : State) : s.markFec.cfg = s.cfg := rfl
@[simp] theorem State.markFec_ctl (s : State) : s.markFec.ctl = s.ctl := rfl
@[simp] theorem State.markFec_fec (s : State) : s.markFec.fec = s.fec := rfl
@[simp] theorem State.markFec_vit (s : State) : s.markFec.vit = s.vit := rfl
@[simp] theorem State.markFec_trl (s : State) : s.markFec.trl = s.trl := rfl
@[simp] theorem State.markFec_sync (s : State) : s.markFec.sync = s.sync := rfl
@[simp] theorem State.markFec_dil (s : State) : s.markFec.dil = s.dil := rfl
@[simp] theorem State.markFec_rstN (s : State) : s.markFec.rstN = s.rstN := rfl
@[simp] theorem State.markFec_pending (s : State) : s.markFec.pending = s.pending := rfl
@[simp] theorem State.markFec_rdata (s : State) : s.markFec.rdata = s.rdata := rfl
@[simp] theorem State.markFec_draws (s : State) : s.markFec.draws = s.draws := rfl
@[simp] theorem State.markFec_unwritten (s : State) :
    s.markFec.unwritten = { s.unwritten with res := 0, info := 0, syn := 0 } := rfl

/-! The per-call clear (43_sync.md R243): the seven elements it zeroes, and the five it leaves. -/

@[simp] theorem SyncUnit.clearCall_info (u : SyncUnit) : u.clearCall.info = SyncInfo.zero := rfl
@[simp] theorem SyncUnit.clearCall_pol (u : SyncUnit) : u.clearCall.pol = false := rfl
@[simp] theorem SyncUnit.clearCall_nxdnValid (u : SyncUnit) : u.clearCall.nxdnValid = false := rfl
@[simp] theorem SyncUnit.clearCall_nxdnCnt (u : SyncUnit) : u.clearCall.nxdnCnt = 0 := rfl
@[simp] theorem SyncUnit.clearCall_sqCnt (u : SyncUnit) : u.clearCall.sqCnt = 0 := rfl
@[simp] theorem SyncUnit.clearCall_frameCnt (u : SyncUnit) : u.clearCall.frameCnt = 0 := rfl
@[simp] theorem SyncUnit.clearCall_stEn (u : SyncUnit) : u.clearCall.stEn = false := rfl
@[simp] theorem SyncUnit.clearCall_window (u : SyncUnit) : u.clearCall.window = u.window := rfl
@[simp] theorem SyncUnit.clearCall_vcnt (u : SyncUnit) : u.clearCall.vcnt = u.vcnt := rfl
@[simp] theorem SyncUnit.clearCall_state (u : SyncUnit) : u.clearCall.state = u.state := rfl
@[simp] theorem SyncUnit.clearCall_warmT (u : SyncUnit) : u.clearCall.warmT = u.warmT := rfl
@[simp] theorem SyncUnit.clearCall_searchCnt (u : SyncUnit) : u.clearCall.searchCnt = u.searchCnt := rfl

/-! Reading operands. -/

/-- A command whose operands all hold values leads to its state. -/
theorem reading_next {s : State} {i : Instr} {b : OperandBuffer} {ks : List Nat} (t : State)
    (h : ∀ k ∈ ks, s.unwritten.lacks b k = false) : s.reading i b ks t = .next t := by
  unfold State.reading
  rw [List.find?_eq_none.2 (fun k hk => by rw [h k hk]; exact Bool.false_ne_true)]

/-- A command leads to its state, all operands holding values, or stops at an operand that holds none (10_state.md R62). -/
theorem reading_cases (s : State) (i : Instr) (b : OperandBuffer) (ks : List Nat) (t : State) :
    ((∀ k ∈ ks, s.unwritten.lacks b k = false) ∧ s.reading i b ks t = .next t) ∨
    ∃ k, k ∈ ks ∧ s.unwritten.lacks b k = true ∧ s.reading i b ks t = .fault (.unwritten i b k) := by
  unfold State.reading
  cases h : ks.find? (s.unwritten.lacks b) with
  | none => exact .inl ⟨fun k hk => Bool.eq_false_iff.2 (List.find?_eq_none.1 h k hk), rfl⟩
  | some k => exact .inr ⟨k, List.mem_of_find?_eq_some h, List.find?_some h, rfl⟩

/-- A command reaches a next state only with all its operands holding values. -/
theorem reading_eq_next_iff {s : State} {i : Instr} {b : OperandBuffer} {ks : List Nat} {t r : State} :
    s.reading i b ks t = .next r ↔ (∀ k ∈ ks, s.unwritten.lacks b k = false) ∧ t = r := by
  rcases reading_cases s i b ks t with ⟨h, e⟩ | ⟨k, hk, hl, e⟩ <;> rw [e]
  · exact ⟨fun hn => ⟨h, Host.Outcome.next.inj hn⟩, fun hn => hn.2 ▸ rfl⟩
  · exact ⟨fun hn => (by cases hn), fun hn => absurd hl (by rw [hn.1 k hk]; exact Bool.false_ne_true)⟩

end Sys2Proof.Machine
end

