-- ==== Sys2Proof/Laws/Bus.lean ====
section
/-! SUPPORT. The register map at the offsets other files name, and what a bus access can change (20_memory.md). -/

namespace Sys2Proof.Machine

/-- A 32-bit access at offset 0x000C reaches CMD (20_memory.md R86). -/
theorem accessed_cmd : accessed cmdOffset .w32 = some .cmd := by decide

/-- A good read of a register without an unwritten bit gives its word and does nothing else (20_memory.md R84). -/
theorem readWord_written {s : State} {r : Reg} (h : unwrittenBits s r = 0) : readWord s r = s.setRdata (readReg s r) := by
  unfold readWord; rw [if_pos (by simp [h])]

/-- A good read of a register with an unwritten bit merges a fresh free value into its word (10_state.md R62). -/
theorem readWord_unwritten {s : State} {r : Reg} (h : unwrittenBits s r ≠ 0) :
    readWord s r = (s.setRdata ((readReg s r &&& ~~~unwrittenBits s r) |||
      (Config.drawWord s.draws &&& unwrittenBits s r))).advanceDraws := by
  unfold readWord; rw [if_neg (by simpa using h)]

theorem merge_and_not (x y m : Word) : ((x &&& ~~~m) ||| (y &&& m)) &&& ~~~m = x &&& ~~~m := by
  apply BitVec.eq_of_getLsbD_eq
  intro i hi
  simp only [BitVec.getLsbD_and, BitVec.getLsbD_or, BitVec.getLsbD_not, hi, decide_true, Bool.true_and]
  generalize x.getLsbD i = a; generalize y.getLsbD i = b; generalize m.getLsbD i = c
  cases a <;> cases b <;> cases c <;> rfl

/-- A good read changes the read word and the count of free values; the word has the written bits as they stand. -/
theorem readWord_spec (s : State) (r : Reg) :
    ∃ x n, readWord s r = (s.setRdata x).setDraws n ∧
      x &&& ~~~unwrittenBits s r = readReg s r &&& ~~~unwrittenBits s r := by
  by_cases h : unwrittenBits s r = 0
  · exact ⟨_, s.draws, (readWord_written h).trans rfl, rfl⟩
  · exact ⟨_, s.draws + 1, (readWord_unwritten h).trans rfl, merge_and_not _ _ _⟩

/-- A bus read changes the read word, the count of free values and, when bad, the error record; nothing else
(20_memory.md R84, R90). -/
theorem busRead_cases (s : State) (a : Offset) (width : AccessWidth) :
    (∃ r x n, accessed a width = some r ∧ busRead s a width = (s.setRdata x).setDraws n ∧
      x &&& ~~~unwrittenBits s r = readReg s r &&& ~~~unwrittenBits s r) ∨
    (accessed a width = none ∧ busRead s a width = (s.recordError .bus (a.setWidth 32)).setRdata 0) := by
  unfold busRead badAccess
  cases accessed a width with
  | none => exact .inr ⟨rfl, rfl⟩
  | some r =>
    obtain ⟨x, n, h1, h2⟩ := readWord_spec s r
    exact .inl ⟨r, x, n, rfl, h1, h2⟩

/-- A bus write issues a command, writes a register, or is bad (20_memory.md R85). -/
theorem busWrite_cases (s : State) (a : Offset) (width : AccessWidth) (v : Word) :
    (accessed a width = some .cmd ∧ busWrite s a width v = issue v s) ∨
    (∃ r, accessed a width = some r ∧ r ≠ .cmd ∧ r.writable = true ∧ busWrite s a width v = .next (writeReg s v r)) ∨
    ((∀ r, accessed a width = some r → r.writable = false) ∧
      busWrite s a width v = .next (s.recordError .bus (a.setWidth 32))) := by
  unfold busWrite badAccess
  cases h : accessed a width with
  | none => exact .inr (.inr ⟨by simp, rfl⟩)
  | some r =>
    by_cases hr : r = .cmd
    · subst hr; exact .inl ⟨rfl, rfl⟩
    · by_cases hw : r.writable = true
      · refine .inr (.inl ⟨r, rfl, hr, hw, ?_⟩)
        cases r <;> simp_all
      · refine .inr (.inr ⟨by intro r' h'; simp at h'; simpa [← h'] using hw, ?_⟩)
        cases r <;> simp_all

/-- Every command answers a next state ("every command completes within its bus write", 70_reset_and_hazards.md R366), or
the model fault UNWRITTEN of an element that holds no value (10_state.md R62). -/
theorem exec_cases (i : Instr) (s : State) : (∃ t, exec i s = .next t) ∨
    ∃ b k, s.unwritten.lacks b k = true ∧ exec i s = .fault (.unwritten i b k) := by
  have hr : ∀ b ks t, exec i s = s.reading i b ks t → (∃ t, exec i s = .next t) ∨
      ∃ b k, s.unwritten.lacks b k = true ∧ exec i s = .fault (.unwritten i b k) := by
    intro b ks t h
    rcases reading_cases s i b ks t with ⟨_, h'⟩ | ⟨k, _, hk, h'⟩
    · exact .inl ⟨t, h.trans h'⟩
    · exact .inr ⟨b, k, hk, h.trans h'⟩
  cases i <;> first | exact .inl ⟨_, rfl⟩ | exact hr _ _ _ rfl

/-- Issuing a word runs its command or records ERR_ILLEGAL (20_memory.md R86; 30_encoding.md R114). -/
theorem issue_cases (v : Word) (s : State) :
    (∃ i, decode v = .ok i ∧ issue v s = exec i s) ∨
    (∃ e, decode v = .error e ∧ issue v s = .next (s.recordError .illegal v)) := by
  unfold issue
  cases decode v with
  | error e => exact .inr ⟨e, rfl, rfl⟩
  | ok i => exact .inl ⟨i, rfl, rfl⟩

/-! The buffers of the register map, each at its offsets (20_memory.md R88). -/

theorem regAt_pm : ∀ w, w < 16 → regAt (0x0080 + 4 * w) = some (.pm w) := by decide

theorem regAt_opd : ∀ w, w < 8 → regAt (0x0100 + 4 * w) = some (.opd w) := by decide

theorem regAt_res : ∀ w, w < 8 → regAt (0x0120 + 4 * w) = some (.res w) := by decide

theorem regAt_info : ∀ w, w < 4 → regAt (0x0140 + 4 * w) = some (.info w) := by decide

theorem regAt_syn : ∀ w, w < 2 → regAt (0x0150 + 4 * w) = some (.syn w) := by decide

theorem regAt_win : ∀ w, w < 4 → regAt (0x0160 + 4 * w) = some (.win w) := by decide

theorem regAt_din : ∀ w, w < 32 → regAt (0x0200 + 4 * w) = some (.din w) := by decide

theorem regAt_tin : ∀ w, w < 32 → regAt (0x0280 + 4 * w) = some (.tin w) := by decide

theorem regAt_tout : ∀ w, w < 4 → regAt (0x0300 + 4 * w) = some (.tout w) := by decide

theorem regAt_tdib : ∀ w, w < 16 → regAt (0x0340 + 4 * w) = some (.tdib w) := by decide

theorem regAt_cin : ∀ w, w < 16 → regAt (0x0400 + 4 * w) = some (.cin w) := by decide

theorem regAt_cout : ∀ w, w < 16 → regAt (0x0440 + 4 * w) = some (.cout w) := by decide

theorem regAt_cenc : ∀ w, w < 32 → regAt (0x0480 + 4 * w) = some (.cenc w) := by decide

theorem regAt_dec : ∀ w, w < 300 → regAt (0x1000 + 4 * w) = some (.dec w) := by decide +kernel

end Sys2Proof.Machine
end

