-- ==== Sys2Proof/Laws/Config.lean ====
section
/-! SUPPORT. EX meets the constraints of 00_scope.md R9, so the instance's configuration does. -/

namespace Sys2Proof.Config

/-! The distances of EX as 40_block_fec.md R160 lists them. -/

theorem ex_dmin_ham74 : ex.dmin .ham74 = 3 := by decide +kernel
theorem ex_dmin_ham106 : ex.dmin .ham106 = 3 := by decide +kernel
theorem ex_dmin_ham128 : ex.dmin .ham128 = 3 := by decide +kernel
theorem ex_dmin_ham1511 : ex.dmin .ham1511 = 3 := by decide +kernel
theorem ex_dmin_ham1611 : ex.dmin .ham1611 = 4 := by decide +kernel
theorem ex_dmin_gol208 : ex.dmin .gol208 = 8 := by decide +kernel
theorem ex_dmin_gol2312 : ex.dmin .gol2312 = 7 := by decide +kernel
theorem ex_dmin_gol2412 : ex.dmin .gol2412 = 8 := by decide +kernel
theorem ex_dmin_gol24128 : ex.dmin .gol24128 = 8 := Eq.trans rfl ex_dmin_gol2412
theorem ex_dmin_qr167 : ex.dmin .qr167 = 6 := by decide +kernel

theorem ex_depthOk : (Code.all.filter Code.hasTable).all ex.depthOk = true := by
  rw [show Code.all.filter Code.hasTable = [.ham74, .ham106, .ham128, .ham1511, .ham1611, .gol208, .gol2312, .gol2412,
    .gol24128, .qr167] from rfl]
  simp [Cfg.depthOk, Cfg.depth, ex_dmin_ham74, ex_dmin_ham106, ex_dmin_ham128, ex_dmin_ham1511, ex_dmin_ham1611,
    ex_dmin_gol208, ex_dmin_gol2312, ex_dmin_gol2412, ex_dmin_gol24128, ex_dmin_qr167]

/-- EX is a valid configuration. -/
theorem ex_wf : ex.wf = true := by
  have h1 : (Code.all.filter (· != .rs2412)).all ex.rowsOk = true := by decide +kernel
  have h2 : decide (ex.syncTable.length ≤ 255) = true := by decide +kernel
  have h3 : ex.syncTable.all SyncEntry.ok = true := by decide +kernel
  have h4 : sortedByProto ex.syncTable = true := by decide +kernel
  have h5 : decide (24 ≤ ex.nW ∧ ex.nW ≤ 64) = true := by decide +kernel
  have h6 : ex.vitTaps1.getLsbD 0 = true := by decide +kernel
  have h7 : ex.vitTaps2.getLsbD 0 = true := by decide +kernel
  have h8 : ex.perm.toList.all permOk = true := by decide +kernel
  have h9 : ((ex.permOf 0).length == 98) = true := by decide +kernel
  unfold Cfg.wf
  rw [h1, ex_depthOk, h2, h3, h4, h5, h6, h7, h8, h9]
  rfl

/-- The instance's configuration is valid, whatever it is. -/
theorem built_wf : built.wf = true := by
  unfold built
  split
  · assumption
  · exact ex_wf

end Sys2Proof.Config
end

