-- ==== Sys2Proof/Laws/Fec.lean ====
section
/-! SUPPORT. What the syndrome table holds and what the block FEC commands change (40_block_fec.md). -/

namespace Sys2Proof.Machine

/-- A choice of w elements is a sublist of length w. -/
theorem choose_spec {w : Nat} {l bs : List Nat} (h : bs ∈ choose w l) : bs.Sublist l ∧ bs.length = w := by
  induction l generalizing w bs with
  | nil =>
    cases w with
    | zero => simp [choose] at h; simp [h]
    | succ w => simp [choose] at h
  | cons b rest ih =>
    cases w with
    | zero => simp [choose] at h; simp [h]
    | succ w =>
      simp only [choose, List.mem_append, List.mem_map] at h
      rcases h with ⟨cs, hc, rfl⟩ | h
      · obtain ⟨h1, h2⟩ := ih hc
        exact ⟨h1.cons_cons b, by simp [h2]⟩
      · obtain ⟨h1, h2⟩ := ih h
        exact ⟨h1.cons b, h2⟩

/-- Every sublist of length w is a choice of w elements. -/
theorem mem_choose {l bs : List Nat} (h : bs.Sublist l) : bs ∈ choose bs.length l := by
  induction h with
  | slnil => simp [choose]
  | @cons l₁ l₂ a hs ih =>
    cases l₁ with
    | nil => simp [choose]
    | cons b bs => simp only [List.length_cons, choose, List.mem_append]; exact .inr ih
  | cons_cons a hs ih =>
    simp only [List.length_cons, choose, List.mem_append, List.mem_map]
    exact .inl ⟨_, ih, rfl⟩

/-- The error patterns are the ascending lists of 1 to t bit indices below n. -/
theorem mem_errorPatterns {n t : Nat} {bs : List Nat} :
    bs ∈ errorPatterns n t ↔ bs.Sublist (List.range n) ∧ 1 ≤ bs.length ∧ bs.length ≤ t := by
  simp only [errorPatterns, List.mem_flatMap, List.mem_range'_1]
  constructor
  · rintro ⟨w, hw, hb⟩
    obtain ⟨h1, rfl⟩ := choose_spec hb
    exact ⟨h1, by omega, by omega⟩
  · rintro ⟨h1, h2, h3⟩
    exact ⟨bs.length, by omega, mem_choose h1⟩

/-- Bit i of an error word is set when i is one of its indices. -/
theorem getLsbD_errorWord (bs : List Nat) (i : Nat) :
    (errorWord bs).getLsbD i = (decide (i < 256) && decide (i ∈ bs)) := by
  induction bs with
  | nil => simp [errorWord]
  | cons b bs ih =>
    have h : errorWord (b :: bs) = BitVec.twoPow 256 b ||| errorWord bs := rfl
    rw [h, BitVec.getLsbD_or, ih, BitVec.getLsbD_twoPow]
    by_cases hi : i < 256 <;> by_cases hb : b = i <;> by_cases hm : i ∈ bs <;>
      simp [hi, hb, hm, Ne.symm]

/-- An entry that building the table has left came from the entry before or from a pattern with this syndrome. -/
theorem foldl_tableStep_spec {cfg : Cfg} {c : Code} {s : BitVec 64} {l : List (List Nat)} {start : Option Vec} {e : Vec}
    (h : l.foldl (tableStep cfg c s) start = some e) :
    start = some e ∨ ∃ bs ∈ l, e = errorWord bs ∧ cfg.syndrome c (errorWord bs) = s := by
  induction l generalizing start with
  | nil => exact .inl h
  | cons a rest ih =>
    rcases ih h with h1 | ⟨bs, hb, h2⟩
    · unfold tableStep at h1
      split at h1
      · rename_i hs
        have hs' : cfg.syndrome c (errorWord a) = s := by simpa using hs
        split at h1
        · exact .inr ⟨a, by simp, by simpa using h1.symm, hs'⟩
        · split at h1
          · exact .inl h1
          · exact .inr ⟨a, by simp, by simpa using h1.symm, hs'⟩
      · exact .inl h1
    · exact .inr ⟨bs, by simp [hb], h2⟩

/-- A table entry is an error pattern of weight 1 to t whose syndrome is its index (40_block_fec.md R143). -/
theorem syndromeTable_spec {cfg : Cfg} {c : Code} {s : BitVec 64} {e : Vec} (h : syndromeTable cfg c s = some e) :
    s ≠ 0 ∧ ∃ bs, bs.Sublist (List.range c.n) ∧ 1 ≤ bs.length ∧ bs.length ≤ cfg.depth c ∧ e = errorWord bs ∧
      cfg.syndrome c e = s := by
  unfold syndromeTable at h
  split at h
  · simp at h
  · rename_i hs
    rcases foldl_tableStep_spec h with h1 | ⟨bs, hb, rfl, h2⟩
    · simp at h1
    · obtain ⟨h3, h4, h5⟩ := mem_errorPatterns.1 hb
      exact ⟨by simpa using hs, bs, h3, h4, h5, rfl, h2⟩

/-- FEC_DECODE replaces the FEC unit, keeping OPD (R147), gives RES, INFO and SYN values, and beside it sets EV_FEC_FAIL or takes a free value. -/
theorem fecDecode_frame (c : Code) (s : State) :
    ∃ u : FecUnit, u.opd = s.fec.opd ∧
      ((∃ b, fecDecode c s = (s.setFec u).markFec.signalIf b .fecFail) ∨
        fecDecode c s = (s.setFec u).markFec.advanceDraws) := by
  unfold fecDecode
  split
  · exact ⟨tableDecode s.cfg c s.fec, rfl, .inl ⟨_, rfl⟩⟩
  · exact ⟨stubDecode c (Config.drawSyn s.draws) s.fec, rfl, .inr rfl⟩

theorem getLsbD_parity_go (rows : List (BitVec 64)) (k : Nat) (u : Vec) (j : Nat) (l : List Nat) :
    (l.foldr (fun i acc => (if u.getLsbD (k - 1 - i) then rows.getD i 0 else 0) ^^^ acc) 0#64).getLsbD j =
      decide (l.countP (fun i => u.getLsbD (k - 1 - i) && (rows.getD i 0).getLsbD j) % 2 = 1) := by
  induction l with
  | nil => simp
  | cons a l ih =>
    simp only [List.foldr_cons, BitVec.getLsbD_xor, ih, List.countP_cons]
    by_cases h : u.getLsbD (k - 1 - a) = true
    · simp only [h, if_true, Bool.true_and]
      generalize (rows.getD a 0).getLsbD j = b
      generalize List.countP _ l = c
      cases b <;> rcases Nat.mod_two_eq_zero_or_one c with hc | hc <;> simp [hc, Nat.add_mod]
    · simp [h]

/-- Bit j of a parity word counts the selected rows with bit j set, modulo 2 (40_block_fec.md R141). -/
theorem getLsbD_parity (rows : List (BitVec 64)) (k : Nat) (u : Vec) (j : Nat) :
    (parity rows k u).getLsbD j =
      decide ((List.range k).countP (fun i => u.getLsbD (k - 1 - i) && (rows.getD i 0).getLsbD j) % 2 = 1) :=
  getLsbD_parity_go rows k u j _

/-- A parity word depends on the k information bits only. -/
theorem parity_congr (rows : List (BitVec 64)) (k : Nat) (u v : Vec) (h : ∀ i, i < k → u.getLsbD i = v.getLsbD i) :
    parity rows k u = parity rows k v := by
  unfold parity
  apply List.foldr_ext
  intro i hi b
  rw [List.mem_range] at hi
  rw [h (k - 1 - i) (by omega)]

/-- Parity is linear. -/
theorem parity_xor (rows : List (BitVec 64)) (k : Nat) (u v : Vec) :
    parity rows k (u ^^^ v) = parity rows k u ^^^ parity rows k v := by
  unfold parity
  generalize List.range k = l
  induction l with
  | nil => simp
  | cons a l ih =>
    simp only [List.foldr_cons]
    rw [ih]
    generalize List.foldr _ _ _ = A
    generalize List.foldr _ _ _ = B
    generalize rows.getD a 0 = R
    rw [BitVec.getLsbD_xor]
    generalize u.getLsbD (k - 1 - a) = p
    generalize v.getLsbD (k - 1 - a) = q
    apply BitVec.eq_of_getLsbD_eq
    intro i hi
    cases p <;> cases q <;>
      simp only [Bool.xor_false, Bool.xor_true, Bool.not_true, Bool.not_false, if_true, BitVec.getLsbD_xor] <;>
      generalize A.getLsbD i = x <;> generalize B.getLsbD i = y <;> generalize R.getLsbD i = z <;>
      cases x <;> cases y <;> cases z <;> simp

/-- A value below 2^m has no bit at or above m. -/
theorem getLsbD_of_toNat_lt {w : Nat} (x : BitVec w) (m j : Nat) (h : x.toNat < 2 ^ m) (hj : m ≤ j) : x.getLsbD j = false := by
  rw [BitVec.getLsbD, Nat.testBit_lt_two_pow]
  exact Nat.lt_of_lt_of_le h (Nat.pow_le_pow_right (by omega) hj)

/-- A parity word has no bit at or above the width of its rows. -/
theorem parity_high (rows : List (BitVec 64)) (k m : Nat) (u : Vec) (h : ∀ r ∈ rows, r.toNat < 2 ^ m) (j : Nat) (hj : m ≤ j) :
    (parity rows k u).getLsbD j = false := by
  rw [getLsbD_parity, decide_eq_false_iff_not, List.countP_eq_zero.2]
  · simp
  · intro i _
    rw [List.getD_eq_getElem?_getD]
    by_cases hi : i < rows.length
    · rw [List.getElem?_eq_getElem hi, Option.getD_some, getLsbD_of_toNat_lt _ m j (h _ (List.getElem_mem hi)) hj]; simp
    · rw [List.getElem?_eq_none (Nat.le_of_not_lt hi)]; simp

/-- The dimensions of 00_scope.md R8 in bounds. -/
theorem Code.dims (c : Code) : c.k < c.n ∧ c.n ≤ 144 ∧ c.k ≤ 128 ∧ (c ≠ .rs2412 → c.n - c.k ≤ 47 ∧ c.n ≤ 63) := by
  cases c <;> decide

/-- onesBelow counts the set bits. -/
theorem onesBelow_eq (n v : Nat) : onesBelow n v = ((List.range n).filter v.testBit).length := by
  induction n generalizing v with
  | zero => rfl
  | succ n ih =>
    rw [onesBelow, ih, List.range_succ_eq_map, List.filter_cons]
    have h0 : (List.filter v.testBit (List.map Nat.succ (List.range n))).length =
        (List.filter (v / 2).testBit (List.range n)).length := by
      rw [List.filter_map, List.length_map]
      congr 1
      apply List.filter_congr
      intro i _
      simp [Nat.testBit_succ]
    rw [← h0]
    rcases Nat.mod_two_eq_zero_or_one v with h | h <;> simp [Nat.testBit_zero, h] <;> omega

/-- Counting beyond the width of a value adds nothing. -/
theorem onesBelow_of_lt (n m v : Nat) (h : v < 2 ^ n) (hm : n ≤ m) : onesBelow m v = onesBelow n v := by
  rw [onesBelow_eq, onesBelow_eq]
  obtain ⟨d, rfl⟩ := Nat.exists_eq_add_of_le hm
  rw [List.range_add, List.filter_append, List.length_append]
  simp only [Nat.add_eq_left, List.length_eq_zero_iff, List.filter_eq_nil_iff, List.mem_map, List.mem_range]
  rintro _ ⟨a, ha, rfl⟩
  rw [Nat.testBit_lt_two_pow]; simp
  exact Nat.lt_of_lt_of_le h (Nat.pow_le_pow_right (by omega) (by omega))

end Sys2Proof.Machine
end

