-- ==== Sys2Proof/Laws/Invariant.lean ====
section
/-! SUPPORT. The shared operations keep the invariant of an instance's states (Sys2Proof/Safety.lean). -/

namespace Sys2Proof.Machine

theorem sticky_or_twoPow {x : Word} {b : Nat} (h : x &&& ~~~stickyMask = 0) (hb : BitVec.twoPow 32 b &&& ~~~stickyMask = 0) :
    (x ||| BitVec.twoPow 32 b) &&& ~~~stickyMask = 0 := by
  rw [BitVec.and_or_distrib_right, h, hb]; rfl

theorem inv_recordError {s : State} (h : s.Inv) (e : ErrKind) (x : Word) : (s.recordError e x).Inv :=
  { h with
    stickyBits := sticky_or_twoPow h.stickyBits (by cases e <;> decide)
    errCodeLe := by show e.code.toNat ≤ 5; cases e <;> decide }

theorem inv_signal {s : State} (h : s.Inv) (e : Event) : (s.signal e).Inv :=
  { h with stickyBits := sticky_or_twoPow h.stickyBits (by cases e <;> decide) }

theorem inv_signalIf {s : State} (h : s.Inv) (b : Bool) (e : Event) : (s.signalIf b e).Inv := by
  cases b
  · exact h
  · exact inv_signal h e

/-- New contents of the record of unwritten elements keep the invariant where the record's own parts of it hold. -/
theorem inv_setUnwritten {s : State} (h : s.Inv) (b : Buffers) (hw : ∀ j, j < s.vit.dp → b.dec.getD j 0 = 0)
    (hd : ∀ j, (b.dec.getD j 0).toNat < 2 ^ 16) (hb : ∀ j, 49 ≤ j → b.tdib.getD j 0 = 0)
    (ho : ∀ j, 12 ≤ j → b.tout.getD j 0 = 0) : (s.setUnwritten b).Inv :=
  { h with decWritten := hw, decFree := hd, tdibFree := hb, toutFree := ho }

/-- The same beside a new Viterbi unit. -/
theorem inv_setVit_setUnwritten {s : State} (h : s.Inv) (v : VitUnit) (b : Buffers) (hdp : v.dp ≤ 300)
    (hdec : ∀ j, (v.dec.getD j 0).toNat < 2 ^ 16) (hw : ∀ j, j < v.dp → b.dec.getD j 0 = 0)
    (hd : ∀ j, (b.dec.getD j 0).toNat < 2 ^ 16) (hb : ∀ j, 49 ≤ j → b.tdib.getD j 0 = 0)
    (ho : ∀ j, 12 ≤ j → b.tout.getD j 0 = 0) : ((s.setVit v).setUnwritten b).Inv :=
  { h with dpLe := hdp, decHigh := hdec, decWritten := hw, decFree := hd, tdibFree := hb, toutFree := ho }

/-- The same beside a new trellis unit, DEC's record as it was. -/
theorem inv_setTrl_setUnwritten {s : State} (h : s.Inv) (u : TrlUnit) (b : Buffers)
    (htdib : ∀ j, 49 ≤ j → u.tdib.getD j 0 = 0) (htout : ∀ j, 12 ≤ j → u.tout.getD j 0 = 0)
    (hsteps : u.trlRes.steps.toNat ≤ 49) (hdec : b.dec = s.unwritten.dec) (hb : ∀ j, 49 ≤ j → b.tdib.getD j 0 = 0)
    (ho : ∀ j, 12 ≤ j → b.tout.getD j 0 = 0) : ((s.setTrl u).setUnwritten b).Inv :=
  { h with
    tdibTail := htdib, toutTail := htout, stepsLe := hsteps, tdibFree := hb, toutFree := ho
    decWritten := fun j hj => by show b.dec.getD j 0 = 0; rw [hdec]; exact h.decWritten j hj
    decFree := fun j => by show (b.dec.getD j 0).toNat < _; rw [hdec]; exact h.decFree j }

end Sys2Proof.Machine
end

