-- ==== Sys2Proof/Laws/PerInstr.lean ====
section
/-! SUPPORT. What holds of every instruction as syntax, one lemma per constructor. -/

namespace Sys2Proof.Laws.EncodedShape

/-- The word of an instruction has its row's header in bits 31:24 and no reserved bit set (30_encoding.md R111, R115). -/
def Statement (i : Instr) : Prop :=
  (encode i).extractLsb' 24 8 = i.opcode.header ∧ encode i &&& i.opcode.reservedMask = 0

/-- A header over 24 operand bits is read back. -/
theorem header_append (h : BitVec 8) (x : BitVec 24) : (h ++ x : Word).extractLsb' 24 8 = h := by
  apply BitVec.eq_of_getLsbD_eq
  intro i hi
  rw [BitVec.getLsbD_extractLsb', BitVec.getLsbD_append]
  simp [hi, -BitVec.getLsbD_eq_getElem]

/-- Operand bits inside the field mask meet no reserved bit. -/
theorem reserved_append (o : Opcode) (x : BitVec 24) (h : x &&& ~~~o.fieldMask = 0) :
    (o.header ++ x : Word) &&& o.reservedMask = 0 := by
  unfold Opcode.reservedMask
  apply BitVec.eq_of_getLsbD_eq
  intro i hi
  rw [BitVec.getLsbD_and, BitVec.getLsbD_append, BitVec.getLsbD_append]
  by_cases h24 : i < 24
  · have := congrArg (fun v => v.getLsbD i) h
    simpa [h24, -BitVec.getLsbD_eq_getElem] using this
  · simp [h24]

theorem of_mask (i : Instr) (h : i.operandBits &&& ~~~i.opcode.fieldMask = 0) : Statement i :=
  ⟨header_append _ _, reserved_append _ _ h⟩

theorem nop : Statement .nop := of_mask _ (by decide)

theorem softReset : Statement .softReset := of_mask _ (by decide)

theorem fecDecode (code : Code) : Statement (.fecDecode code) := of_mask _ (by cases code <;> decide)

theorem fecEncode (code : Code) : Statement (.fecEncode code) := of_mask _ (by cases code <;> decide)

theorem convStart : Statement .convStart := of_mask _ (by decide)

theorem convStep (s0 s1 : BitVec 8) : Statement (.convStep s0 s1) := of_mask _ (by
  apply BitVec.eq_of_getLsbD_eq
  intro i hi
  simp only [Instr.operandBits, Instr.opcode, Opcode.fieldMask, BitVec.getLsbD_and, BitVec.getLsbD_append]
  interval_cases i <;> simp)

theorem convChainback (nbits : BitVec 9) : Statement (.convChainback nbits) := of_mask _ (by
  revert nbits; decide)

theorem convEncode (nbits : BitVec 9) : Statement (.convEncode nbits) := of_mask _ (by
  revert nbits; decide)

theorem trellis12 : Statement .trellis12 := of_mask _ (by decide)

theorem pushSymbol (d : Dibit) : Statement (.pushSymbol d) := of_mask _ (by revert d; decide)

theorem pushSample (v : BitVec 16) : Statement (.pushSample v) := of_mask _ (by
  apply BitVec.eq_of_getLsbD_eq
  intro i hi
  simp only [Instr.operandBits, Instr.opcode, Opcode.fieldMask, BitVec.getLsbD_and, BitVec.getLsbD_append]
  interval_cases i <;> simp)

theorem resync (abort : Bool) : Statement (.resync abort) := of_mask _ (by cases abort <;> decide)

theorem syncReset : Statement .syncReset := of_mask _ (by decide)

theorem deint (slot : BitVec 3) : Statement (.deint slot) := of_mask _ (by revert slot; decide)

theorem pack (off cnt : BitVec 7) (shr : BitVec 4) : Statement (.pack off cnt shr) := of_mask _ (by
  apply BitVec.eq_of_getLsbD_eq
  intro i hi
  simp only [Instr.operandBits, Instr.opcode, Opcode.fieldMask, BitVec.getLsbD_and, BitVec.getLsbD_append]
  interval_cases i <;> simp)

end Sys2Proof.Laws.EncodedShape
end

