-- ==== Sys2Proof/Laws/Reading.lean ====
section
/-! SUPPORT. What each command that reads a buffer comes to when its operands hold values, and when it reads none
(10_state.md R62). -/

namespace Sys2Proof.Machine

theorem exec_fecDecode {c : Code} {s : State} (h : ∀ i, i < c.n → s.unwritten.opd.getLsbD i = false) :
    exec (.fecDecode c) s = .next (fecDecode c s) :=
  reading_next _ (fun k hk => h k (List.mem_range.1 hk))

theorem exec_fecEncode {c : Code} {s : State} (h : c ≠ .rs2412 → ∀ i, i < c.k → s.unwritten.opd.getLsbD i = false) :
    exec (.fecEncode c) s = .next (fecEncode c s) := by
  refine reading_next _ (fun k hk => ?_)
  by_cases hc : c = .rs2412
  · rw [if_pos (by simp [hc])] at hk; simp at hk
  · rw [if_neg (by simpa using hc)] at hk; exact h hc k (List.mem_range.1 hk)

theorem exec_convChainback {n : BitVec 9} {s : State}
    (h : ∀ j, s.vit.dp - n.toNat ≤ j → j < s.vit.dp → s.unwritten.dec.getD j 0 = 0) :
    exec (.convChainback n) s = .next (convChainback n s) := by
  refine reading_next _ (fun k hk => ?_)
  by_cases hn : s.vit.dp < n.toNat
  · rw [if_pos hn] at hk; simp at hk
  · rw [if_neg hn] at hk
    obtain ⟨q, hq, rfl⟩ := List.mem_map.1 hk
    rw [List.mem_range] at hq
    show (s.unwritten.dec.getD (s.vit.dp - 1 - q) 0 != 0) = false
    rw [h _ (by omega) (by omega)]; rfl

theorem exec_convEncode {n : BitVec 9} {s : State} (h : n.toNat ≤ 300 → ∀ i, i < n.toNat → s.unwritten.cin.getLsbD i = false) :
    exec (.convEncode n) s = .next (convEncode n s) := by
  refine reading_next _ (fun k hk => ?_)
  by_cases hn : decCap < n.toNat
  · rw [if_pos hn] at hk; simp at hk
  · rw [if_neg hn] at hk; exact h (Nat.le_of_not_lt hn) k (List.mem_range.1 hk)

theorem exec_trellis12 {s : State} (h : ∀ i, i < 98 → s.unwritten.tin.getD i 0 = 0) :
    exec .trellis12 s = .next (trellis12 s) := by
  refine reading_next _ (fun k hk => ?_)
  show (s.unwritten.tin.getD k 0 != 0) = false
  rw [h k (List.mem_range.1 hk)]; rfl

theorem exec_deint {slot : BitVec 3} {s : State} (h : ∀ k ∈ s.cfg.perm.getD slot.toNat [], s.unwritten.din.getD k 0 = 0) :
    exec (.deint slot) s = .next (deint slot s) := by
  refine reading_next _ (fun k hk => ?_)
  show (s.unwritten.din.getD k 0 != 0) = false
  rw [h k hk]; rfl

theorem exec_pack {off cnt : BitVec 7} {shr : BitVec 4} {s : State}
    (h : off.toNat + cnt.toNat ≤ 128 → ∀ j, j < cnt.toNat → s.unwritten.din.getD (off.toNat + j) 0 = 0) :
    exec (.pack off cnt shr) s = .next (pack off cnt shr s) := by
  refine reading_next _ (fun k hk => ?_)
  by_cases hr : packOutOfRange off cnt = true
  · rw [if_pos hr] at hk; simp at hk
  · rw [if_neg hr] at hk
    have hle : off.toNat + cnt.toNat ≤ 128 := by
      unfold packOutOfRange dinSize at hr; simp at hr; omega
    have hk' := List.mem_range'_1.1 hk
    show (s.unwritten.din.getD k 0 != 0) = false
    rw [show k = off.toNat + (k - off.toNat) by omega, h hle _ (by omega)]; rfl

/-- The record says of an element that it holds no value exactly when Buffers.lacks says so. -/
theorem holdsNoValue_iff (s : State) (b : OperandBuffer) (k : Nat) :
    holdsNoValue s b k ↔ s.unwritten.lacks b k = true := by
  cases b <;> simp [holdsNoValue, Buffers.lacks, -BitVec.getLsbD_eq_getElem]

end Sys2Proof.Machine
end

