-- ==== Sys2Proof/Laws/Step.lean ====
section
/-! SUPPORT. What a step does with the host input at the head of the queue, and what a good read returns. -/

namespace Sys2Proof.Machine

/-- A step takes the input that was put at the head of the queue. -/
theorem step_offer (s : State) (x : HostInput) : step (s.offer x) = hostInput x s := rfl

/-- A bus read while RST_N is 1 (20_memory.md R84). -/
theorem step_read {s : State} (hr : s.rstN = true) (a : Offset) (width : AccessWidth) :
    step (s.offer (.read a width)) = .next (busRead s a width) := by
  rw [step_offer, show hostInput (.read a width) s = .next (if s.rstN then busRead s a width else s.setRdata 0) from rfl,
    if_pos hr]

/-- A bus write while RST_N is 1 (20_memory.md R85). -/
theorem step_write {s : State} (hr : s.rstN = true) (a : Offset) (width : AccessWidth) (v : Word) :
    step (s.offer (.write a width v)) = busWrite s a width v := by
  rw [step_offer, show hostInput (.write a width v) s = (if s.rstN then busWrite s a width v else .next s) from rfl,
    if_pos hr]

/-- The one word a good read gives: the register's, with the unwritten bits replaced by the free value (10_state.md R62). -/
theorem readsAs_iff {s : State} (hr : s.rstN = true) {o : Nat} {r : Reg}
    (ho : accessed (BitVec.ofNat 13 o) .w32 = some r) (x : Word) :
    readsAs s o x ↔ x = if unwrittenBits s r = 0 then readReg s r
      else (readReg s r &&& ~~~unwrittenBits s r) ||| (Config.drawWord s.draws &&& unwrittenBits s r) := by
  unfold readsAs
  rw [step_read hr, show busRead s (BitVec.ofNat 13 o) .w32 = readWord s r by unfold busRead; rw [ho]]
  by_cases h : unwrittenBits s r = 0
  · rw [readWord_written h, if_pos h]
    exact ⟨fun ⟨_, hn⟩ => (congrArg State.rdata (Host.Outcome.next.inj hn)).symm, fun hx => ⟨s.draws, hx ▸ rfl⟩⟩
  · rw [readWord_unwritten h, if_neg h]
    exact ⟨fun ⟨_, hn⟩ => (congrArg State.rdata (Host.Outcome.next.inj hn)).symm, fun hx => ⟨s.draws + 1, hx ▸ rfl⟩⟩

/-- A good read of a register draws for the bits that unwrittenBits gives of it (10_state.md R62). -/
theorem drawsFor_unwrittenBits {s : State} (hr : s.rstN = true) {o : Nat} {r : Reg}
    (ho : accessed (BitVec.ofNat 13 o) .w32 = some r) {free : Nat → Bool}
    (hf : ∀ i, i < 32 → free i = (unwrittenBits s r).getLsbD i) : drawsFor s o free := by
  unfold drawsFor
  rw [step_read hr, show busRead s (BitVec.ofNat 13 o) .w32 = readWord s r by unfold busRead; rw [ho]]
  by_cases h : unwrittenBits s r = 0
  · have hn : ∀ i, i < 32 → free i = false := fun i hi => by rw [hf i hi, h]; exact BitVec.getLsbD_zero
    have ha : (List.range 32).any free = false := by
      rw [List.any_eq_false]; intro i hi; rw [hn i (List.mem_range.1 hi)]; exact Bool.false_ne_true
    rw [readWord_written h, if_neg (by rw [ha]; exact Bool.false_ne_true)]
    exact ⟨_, rfl, fun i hi hi' => absurd hi' (by rw [hn i hi]; exact Bool.false_ne_true)⟩
  · have ha : (List.range 32).any free = true := by
      by_contra hc
      refine h (BitVec.eq_of_getLsbD_eq fun i hi => ?_)
      rw [← hf i hi]
      exact (Bool.eq_false_iff.2 (List.any_eq_false.1 (Bool.eq_false_iff.2 hc) i (List.mem_range.2 hi))).trans
        BitVec.getLsbD_zero.symm
    rw [readWord_unwritten h, if_pos ha]
    refine ⟨_, rfl, fun i hi hi' => ?_⟩
    rw [hf i hi] at hi'
    show ((readReg s r &&& ~~~unwrittenBits s r) ||| (Config.drawWord s.draws &&& unwrittenBits s r)).getLsbD i = _
    rw [BitVec.getLsbD_or, BitVec.getLsbD_and, BitVec.getLsbD_and, BitVec.getLsbD_not, hi']
    simp

/-- An aligned 32-bit access reaches the register the map has at its offset (20_memory.md R82, R88). -/
theorem accessed_aligned {o : Nat} (ho : o < 8192) (h4 : o % 4 = 0) : accessed (BitVec.ofNat 13 o) .w32 = regAt o := by
  unfold accessed
  rw [show (BitVec.ofNat 13 o).toNat = o from by rw [BitVec.toNat_ofNat]; exact Nat.mod_eq_of_lt ho, h4]
  rfl

end Sys2Proof.Machine
end

