-- ==== Sys2Proof/Laws/Sync.lean ====
section
/-! SUPPORT. What the operations of the sync unit and the frame path can do (43_sync.md, 44_deinterleave.md). -/

namespace Sys2Proof.Machine

@[simp] theorem SyncUnit.resetNxdn_resetNxdn (u : SyncUnit) : u.resetNxdn.resetNxdn = u.resetNxdn := rfl

@[simp] theorem SyncUnit.resetNxdn_mism (u : SyncUnit) (e : SyncEntry) : u.resetNxdn.mism e = u.mism e := rfl

/-- A scan leaves the unit as it was or with the NXDN count reset, nothing else. -/
theorem scan_unit (ctl : Control) (l : List SyncEntry) (idx : Nat) (u : SyncUnit) :
    (scan ctl l idx u).1 = u ∨ (scan ctl l idx u).1 = u.resetNxdn := by
  induction l generalizing idx u with
  | nil => exact .inl rfl
  | cons e rest ih =>
    simp only [scan]
    split
    · exact ih _ _
    · split
      · exact ih _ _
      · split
        · rcases ih (idx + 1) u.resetNxdn with h | h <;> simp [h]
        · exact .inl rfl

/-- An accepted entry is enabled, stands at its index of the list, matches within its tolerance with the reported count,
and if it is a short sync its gate is open in the unit the scan leaves (43_sync.md R237). -/
theorem scan_found {ctl : Control} {l : List SyncEntry} {idx : Nat} {u : SyncUnit} {i m : Nat} {e : SyncEntry}
    (h : (scan ctl l idx u).2 = some (i, e, m)) :
    idx ≤ i ∧ l[i - idx]? = some e ∧ ctl.en e.proto = true ∧ m = u.mism e ∧ m ≤ e.tol ∧
      (e.short = true → (scan ctl l idx u).1.shortGate = true) := by
  induction l generalizing idx u with
  | nil => simp [scan] at h
  | cons a rest ih =>
    have tail : ∀ v, v.mism e = u.mism e → (scan ctl rest (idx + 1) v).2 = some (i, e, m) →
        idx ≤ i ∧ (a :: rest)[i - idx]? = some e ∧ ctl.en e.proto = true ∧ m = u.mism e ∧ m ≤ e.tol ∧
          (e.short = true → (scan ctl rest (idx + 1) v).1.shortGate = true) := by
      intro v hv hs
      obtain ⟨h1, h2, h3, h4, h5, h6⟩ := ih hs
      refine ⟨by omega, ?_, h3, hv ▸ h4, h5, h6⟩
      rw [show i - idx = (i - (idx + 1)) + 1 by omega]
      simpa using h2
    simp only [scan] at h ⊢
    split at h
    · rename_i hd; rw [if_pos hd]; exact tail u rfl h
    · rename_i hd
      rw [if_neg hd]
      split at h
      · rename_i ht; rw [if_pos ht]; exact tail u rfl h
      · rename_i ht
        rw [if_neg ht]
        split at h
        · rename_i hg; rw [if_pos hg]; exact tail u.resetNxdn rfl h
        · rename_i hg
          rw [if_neg hg]
          simp only [Option.some.injEq, Prod.mk.injEq] at h
          obtain ⟨rfl, rfl, rfl⟩ := h
          refine ⟨le_refl _, by simp, by simpa using hd, rfl, by omega, ?_⟩
          intro hs
          simpa [hs] using hg

/-- What a frame dibit can do (44_deinterleave.md R288): FRAME_CNT advances, and then it is diverted, captured, dropped
with ERR_OVF, or let go. -/
theorem frameDibit_cases (d : Dibit) (v : Word) (s : State) :
    let t := s.setSync { s.sync with frameCnt := s.sync.frameCnt + 1 }
    let d' := correctPolarity s.cfg s.sync.pol d
    (frameDibit d v s = (t.setDil (s.dil.divert d')).signal .status ∧ s.sync.stEn = true ∧
        isStatusTurn (s.sync.frameCnt + 1) = true) ∨
    ((s.sync.stEn && isStatusTurn (s.sync.frameCnt + 1)) = false ∧
      ((frameDibit d v s = (t.setDil (s.dil.capture d')).setUnwritten
            { s.unwritten with din := s.unwritten.din.setIfInBounds s.dil.capPtr 0 } ∧ s.ctl.capEn = true ∧ s.dil.capPtr < 128) ∨
       (frameDibit d v s = t.recordError .ovf v ∧ s.ctl.capEn = true ∧ 128 ≤ s.dil.capPtr) ∨
       (frameDibit d v s = t ∧ s.ctl.capEn = false))) := by
  by_cases h1 : (s.sync.stEn && isStatusTurn (s.sync.frameCnt + 1)) = true
  · exact .inl ⟨if_pos h1, by simpa using h1⟩
  · refine .inr ⟨by simpa using h1, ?_⟩
    by_cases h2 : s.ctl.capEn = true
    · by_cases h3 : s.dil.capPtr < 128
      · exact .inl ⟨(if_neg h1).trans ((if_pos h2).trans (if_pos h3)), h2, h3⟩
      · exact .inr (.inl ⟨(if_neg h1).trans ((if_pos h2).trans (if_neg h3)), h2, by omega⟩)
    · exact .inr (.inr ⟨(if_neg h1).trans (if_neg h2), by simpa using h2⟩)

/-- What DEINT does (44_deinterleave.md R282): one of these two, by the slot. -/
theorem deint_cases (slot : BitVec 3) (s : State) :
    (s.cfg.slotPresent slot.toNat = false ∧ deint slot s = s.recordError .illegal (encode (.deint slot))) ∨
    (s.cfg.slotPresent slot.toNat = true ∧ deint slot s =
      (s.setTrl { s.trl with tin := gather (s.cfg.permOf slot.toNat) s.dil.din s.trl.tin }).setUnwritten
        { s.unwritten with tin := clearFirst s.unwritten.tin (s.cfg.permOf slot.toNat).length }) := by
  by_cases h : s.cfg.slotPresent slot.toNat = true
  · exact .inr ⟨h, if_pos h⟩
  · exact .inl ⟨by simpa using h, if_neg h⟩

/-- What PACK does (44_deinterleave.md R283): one of these two, by OFF and CNT. -/
theorem pack_cases (off cnt : BitVec 7) (shr : BitVec 4) (s : State) :
    (packOutOfRange off cnt = true ∧ pack off cnt shr s = s.recordError .range (encode (.pack off cnt shr))) ∨
    (packOutOfRange off cnt = false ∧ pack off cnt shr s =
      (s.setFec { s.fec with opd := packDibits s.dil.din off.toNat cnt.toNat >>> shr.toNat }).setUnwritten
        { s.unwritten with opd := 0 }) := by
  by_cases h : packOutOfRange off cnt = true
  · exact .inl ⟨h, if_pos h⟩
  · exact .inr ⟨by simpa using h, if_neg h⟩

/-- What a symbol of LOOK without a declaration can do (43_sync.md R240): it counts, or it is the 1800th. -/
theorem noMatch_cases (s : State) :
    (noMatch s = (s.setSync { s.sync.clearCall with searchCnt := 0 }).signal .nosync ∧ s.sync.searchCnt = 1799) ∨
    (noMatch s = s.setSync { s.sync with searchCnt := s.sync.searchCnt + 1 } ∧ s.sync.searchCnt ≠ 1799) := by
  unfold noMatch nosyncLimit
  by_cases h : s.sync.searchCnt = 1799
  · left; rw [if_pos (by simp [h])]; exact ⟨rfl, h⟩
  · right; rw [if_neg (by simpa using h)]; exact ⟨rfl, h⟩

/-- What a symbol of LOOK can do (43_sync.md R236): count as a non-match, in the unit as it was or with the NXDN count
reset, or declare an entry that the scan accepted. -/
theorem lookSymbol_cases (warm : Bool) (s : State) :
    (∃ u, (u = s.sync ∨ u = s.sync.resetNxdn) ∧ lookSymbol warm s = noMatch (s.setSync u)) ∨
    (∃ u idx e m, (u = s.sync ∨ u = s.sync.resetNxdn) ∧ warm = false ∧
      scan s.ctl s.cfg.syncTable 0 s.sync = (u, some (idx, e, m)) ∧
      lookSymbol warm s = declareSync (s.setSync u) idx e m) := by
  unfold lookSymbol
  cases warm with
  | true => exact .inl ⟨s.sync, .inl rfl, rfl⟩
  | false =>
    have hu := scan_unit s.ctl s.cfg.syncTable 0 s.sync
    rcases hs : scan s.ctl s.cfg.syncTable 0 s.sync with ⟨u, r⟩
    rw [hs] at hu
    rcases r with _ | ⟨idx, e, m⟩
    · exact .inl ⟨u, hu, by simp⟩
    · exact .inr ⟨u, idx, e, m, hu, rfl, rfl, by simp⟩

/-- The unit after window, NXDN count and warm-up of a symbol (43_sync.md R233, R235, R236). -/
def symbolUnit (nW : Nat) (u : SyncUnit) (d : Dibit) : SyncUnit := (u.shiftWindow nW d).countNxdn.countWarm

/-- What a symbol does in each SYNC_STATE (43_sync.md R236). -/
theorem pushSymbol_eq (d : Dibit) (s : State) :
    pushSymbol d s =
      match s.sync.state with
      | .look => lookSymbol s.sync.warm (s.setSync (symbolUnit s.cfg.nW s.sync d))
      | .found => frameDibit d (encode (.pushSymbol d))
          (s.setSync { symbolUnit s.cfg.nW s.sync d with state := .locked })
      | .locked => frameDibit d (encode (.pushSymbol d)) (s.setSync (symbolUnit s.cfg.nW s.sync d)) := rfl

end Sys2Proof.Machine
end

