-- ==== Sys2Proof/Laws/Trellis.lean ====
section
/-! SUPPORT. What the trellis loop does (42_trellis.md R211, R212). -/

namespace Sys2Proof.Machine

/-- The loop reaches no step beyond its last, and a tie is at one of its steps. -/
theorem trellisLoop_tie {cfg : Cfg} {tin : Vector Dibit 128} {left i k : Nat} {st : Dibit} {tdib : Vector Dibit 64}
    (h : (trellisLoop cfg tin left i st tdib).2 = some k) : i ≤ k ∧ k < i + left := by
  induction left generalizing i st tdib with
  | zero => simp [trellisLoop] at h
  | succ n ih =>
    simp only [trellisLoop] at h
    split at h
    · simp at h; omega
    · have := ih h; omega

/-- The loop leaves the elements of TDIB outside its steps. -/
theorem trellisLoop_outside (cfg : Cfg) (tin : Vector Dibit 128) (left i : Nat) (st : Dibit) (tdib : Vector Dibit 64)
    (j : Nat) (h : j < i ∨ i + left ≤ j) :
    (trellisLoop cfg tin left i st tdib).1.getD j 0 = tdib.getD j 0 := by
  induction left generalizing i st tdib with
  | zero => rfl
  | succ n ih =>
    simp only [trellisLoop]
    split
    · rfl
    · rename_i x _
      rw [ih (i + 1) x _ (by omega), getD_setIfInBounds_ne _ _ _ _ _ (by omega)]

/-- What TRELLIS12 does (42_trellis.md R211, R212): it goes through, or it stops at the step of a tie. -/
theorem trellis12_cases (s : State) :
    let r := trellisLoop s.cfg s.trl.tin 49 0 0 s.trl.tdib
    (r.2 = none ∧ trellis12 s =
      (s.setTrl { s.trl with
        tdib := r.1
        tout := trellisBytes r.1
        trlRes := { done := true, ok := true, steps := 49, failStep := 63 } }).setUnwritten
        { s.unwritten with tdib := clearFirst s.unwritten.tdib 49, tout := Vector.replicate 16 0 }) ∨
    (∃ i, r.2 = some i ∧ i < 49 ∧ trellis12 s =
      ((s.setTrl { s.trl with
        tdib := r.1
        trlRes := { done := true, ok := false, steps := BitVec.ofNat 6 i, failStep := BitVec.ofNat 6 i } }).setUnwritten
        { s.unwritten with tdib := clearFirst s.unwritten.tdib i }).signal .trlFail) := by
  intro r
  unfold trellis12
  rcases h : r.2 with _ | i
  · refine .inl ⟨rfl, ?_⟩
    have h' : (trellisLoop s.cfg s.trl.tin 49 0 0 s.trl.tdib).2 = none := h
    simp only [h', Option.isSome_none, Option.isNone_none, Option.getD_none, State.signalIf_false]
    rfl
  · have h' : (trellisLoop s.cfg s.trl.tin 49 0 0 s.trl.tdib).2 = some i := h
    refine .inr ⟨i, rfl, by have := trellisLoop_tie h'; omega, ?_⟩
    simp only [h', Option.isSome_some, Option.isNone_some, Option.getD_some, State.signalIf_true]
    rfl

end Sys2Proof.Machine
end

