-- ==== Sys2Proof/Laws/Viterbi.lean ====
section
/-! SUPPORT. What the loops of the Viterbi unit do (41_viterbi.md). -/

namespace Sys2Proof.Machine

/-- A chainback of n bits lowers DP by n. -/
theorem chainback_dp (dec : Vector (BitVec 64) 300) (n dp : Nat) (st : BitVec 8) (cout : BitVec 512) :
    (chainback dec n dp st cout).1 = dp - n := by
  induction n generalizing dp st cout with
  | zero => rfl
  | succ r ih => simp only [chainback]; rw [ih]; omega

/-- A chainback of n bits leaves the COUT bits at and above n. -/
theorem chainback_high (dec : Vector (BitVec 64) 300) (n dp : Nat) (st : BitVec 8) (cout : BitVec 512) (j : Nat)
    (h : n ≤ j) : (chainback dec n dp st cout).2.getLsbD j = cout.getLsbD j := by
  induction n generalizing dp st cout with
  | zero => rfl
  | succ r ih =>
    simp only [chainback]
    rw [ih _ _ _ (by omega), getLsbD_setBit, if_neg (by omega)]

/-- The encoder loop leaves the CENC bits outside the pairs it writes. -/
theorem convEncodeLoop_outside (t1 t2 : BitVec 5) (cin : BitVec 512) (left b : Nat) (reg : BitVec 4)
    (cenc : BitVec 1024) (j : Nat) (h : j < 2 * b ∨ 2 * (b + left) ≤ j) :
    (convEncodeLoop t1 t2 cin left b reg cenc).getLsbD j = cenc.getLsbD j := by
  induction left generalizing b reg cenc with
  | zero => rfl
  | succ n ih =>
    simp only [convEncodeLoop]
    rw [ih (b + 1) _ _ (by omega), getLsbD_setBit, if_neg (by omega), getLsbD_setBit, if_neg (by omega)]

/-- A decision word has its 16 decisions in bits 15:0 and nothing above. -/
theorem getLsbD_decisionWord (cfg : Cfg) (pm : Vector (BitVec 16) 16) (s0 s1 : BitVec 8) (j : Nat) :
    (decisionWord cfg pm s0 s1).getLsbD j = (decide (j < 16) && (addCompareSelect cfg pm s0 s1 j).1) := by
  unfold decisionWord
  rw [BitVec.getLsbD_setWidth, getLsbD_ofBits]
  by_cases h : j < 16
  · simp [h, show j < 64 by omega]
  · simp [h]

theorem decisionWord_lt (cfg : Cfg) (pm : Vector (BitVec 16) 16) (s0 s1 : BitVec 8) :
    (decisionWord cfg pm s0 s1).toNat < 2 ^ 16 := by
  unfold decisionWord
  rw [BitVec.toNat_setWidth_of_le (by omega)]
  exact BitVec.isLt _

/-- What CONV_STEP does (41_viterbi.md R182, R183): one of these two, by DP. -/
theorem convStep_cases (s0 s1 : BitVec 8) (s : State) :
    (300 ≤ s.vit.dp ∧ convStep s0 s1 s = s.recordError .cap (encode (.convStep s0 s1))) ∨
    (s.vit.dp < 300 ∧ convStep s0 s1 s = (s.setVit (convStepUnit s.cfg s0 s1 s.vit)).setUnwritten
      { s.unwritten with dec := s.unwritten.dec.setIfInBounds s.vit.dp 0 }) := by
  by_cases h : 300 ≤ s.vit.dp
  · exact .inl ⟨h, if_pos h⟩
  · exact .inr ⟨by omega, if_neg h⟩

/-- What CONV_CHAINBACK does (41_viterbi.md R185, R186): one of these two, by NBITS and DP. -/
theorem convChainback_cases (nbits : BitVec 9) (s : State) :
    (s.vit.dp < nbits.toNat ∧ convChainback nbits s = s.recordError .range (encode (.convChainback nbits))) ∨
    (nbits.toNat ≤ s.vit.dp ∧ convChainback nbits s =
      (s.setVit { s.vit with
        dp := s.vit.dp - nbits.toNat
        cout := (chainback s.vit.dec nbits.toNat s.vit.dp 0 s.vit.cout).2 }).setUnwritten
        { s.unwritten with cout := clearBelow s.unwritten.cout nbits.toNat }) := by
  by_cases h : s.vit.dp < nbits.toNat
  · exact .inl ⟨h, if_pos h⟩
  · exact .inr ⟨by omega, by rw [← chainback_dp s.vit.dec nbits.toNat s.vit.dp 0 s.vit.cout]; exact if_neg h⟩

/-- What CONV_ENCODE does (41_viterbi.md R187): one of these two, by NBITS. -/
theorem convEncode_cases (nbits : BitVec 9) (s : State) :
    (300 < nbits.toNat ∧ convEncode nbits s = s.recordError .range (encode (.convEncode nbits))) ∨
    (nbits.toNat ≤ 300 ∧ convEncode nbits s =
      (s.setVit { s.vit with
        cenc := convEncodeLoop s.cfg.vitTaps1 s.cfg.vitTaps2 s.vit.cin nbits.toNat 0 0 s.vit.cenc }).setUnwritten
        { s.unwritten with cenc := clearBelow s.unwritten.cenc (2 * nbits.toNat) }) := by
  by_cases h : 300 < nbits.toNat
  · exact .inl ⟨h, if_pos h⟩
  · exact .inr ⟨by omega, if_neg h⟩

end Sys2Proof.Machine
end

