-- ==== Sys2Proof/Tests/Slice0.lean ====
section
/-! SUPPORT. The model's own tests: the spec's encodings and vectors, one command each, and for every statement with
hypotheses a witness that meets them. Expected results are those of 95_test_vectors.md and of the rules named. -/

namespace Sys2Proof.Tests

set_option Elab.async false

open Sys2Proof.Machine

/-! What the tests run. -/

/-- Buffers of zeros. -/
def zeros : PowerOnBuffers where
  opd := 0
  res := 0
  info := 0
  syn := 0
  dec := Vector.replicate 300 0
  cin := 0
  cout := 0
  cenc := 0
  tin := Vector.replicate 128 0
  tdib := Vector.replicate 49 0
  tout := Vector.replicate 12 0
  din := Vector.replicate 128 0

/-- EX after power-on, with buffers of zeros. -/
def start : State := State.powerOn Config.ex zeros

/-- The state of a next outcome. -/
def after : Host.Outcome State Fault Refusal → Option State
  | .next t => some t
  | .fault _ => none
  | .refused _ => none

/-- The fault of an outcome. -/
def stop : Host.Outcome State Fault Refusal → Option Fault
  | .fault r => some r
  | .next _ => none
  | .refused _ => none

/-- A command on a state, and a look at the state after it. -/
def run {α : Type} (i : Instr) (s : State) (look : State → α) : Option α := (after (exec i s)).map look

/-- A host input on a state, and a look at the state after it. -/
def host {α : Type} (x : HostInput) (s : State) (look : State → α) : Option α := (after (step (s.offer x))).map look

/-- The state with every buffer element holding a value. -/
def allWritten (s : State) : State :=
  s.setUnwritten
    { opd := 0, res := 0, info := 0, syn := 0, dec := Vector.replicate 300 0, cin := 0, cout := 0, cenc := 0,
      tin := Vector.replicate 128 0, tdib := Vector.replicate 64 0, tout := Vector.replicate 16 0, din := Vector.replicate 128 0 }

/-- `start` with an FEC operand, written. -/
def withOpd (v : Vec) : State := allWritten (start.setFec { start.fec with opd := v })

/-- `start` with DIN[j] = j mod 4, written. -/
def withDin : State :=
  allWritten (start.setDil { start.dil with din := Vector.ofFn (fun i : Fin 128 => BitVec.ofNat 2 i.val) })

/-- `start` with a sync unit in a given state, every EN bit and CAP_EN set. -/
def withSync (u : SyncUnit) : State := (start.setSync u).setCtl { start.ctl with ctrl := 0x1FF }

/-- After the warm-up, with the given symbols in the window, newest first, and `n` symbols searched. -/
def searching (window : List Dibit) (n : Nat) : SyncUnit :=
  { SyncUnit.reset Config.ex with window := window, vcnt := 24, warmT := 18, searchCnt := n }

/-- The window of V-SYNC-1 one symbol before the P25 pattern is complete. -/
def almostP25 : List Dibit := [3,3,3,3,1,3,1,3,3,3,3,1,1,3,3,1,1,3,1,1,1,1,1,0]

/-- A window of zeros. -/
def quiet : List Dibit := List.replicate 24 0

/-- In a P25 frame: the unit of V-SYNC-1 after the declaration, with a polarity and a frame count. -/
def inFrame (pol : Bool) (frameCnt : Word) : SyncUnit :=
  { searching quiet 0 with
    state := .found, pol := pol, stEn := true, frameCnt := frameCnt, info := { SyncInfo.zero with valid := true, epol := pol } }

/-- `start` with DP = 300, every decision word written. -/
def full : State := allWritten (start.setVit { start.vit with dp := 300 })

/-- `start` with RST_N = 0. -/
def inReset : State := start.setRstN false

/-- A writable offset other than CMD, STATUS and CAP_PTR, and aligned. -/
def plainWrite (a : Offset) : Bool :=
  decide (a.toNat % 4 = 0 ∧ writableOffset a.toNat = true ∧ a ≠ 0x0008 ∧ a ≠ 0x000C ∧ a ≠ 0x0038)

/-! Well-formedness (30_encoding.md R118, R125): the only check left to it is FEC_ENCODE of RS_24_12. -/

theorem test_wellFormed_refuses_rs_encode : (Instr.fecEncode .rs2412).wellFormed = false := by decide

theorem test_wellFormed_accepts : (Instr.fecEncode .qr167).wellFormed = true ∧ (Instr.fecDecode .rs2412).wellFormed = true ∧
    (Instr.pack 127 127 15).wellFormed = true := by decide

/-! Decoding: a word written out from 30_encoding.md R112 and R116 for every constructor. -/

theorem test_decode_nop : decode 0b0000_0000_0000_0000_0000_0000_0000_0000 = .ok .nop := by decide

theorem test_decode_softReset : decode 0b0000_0001_0000_0000_0000_0000_0000_0000 = .ok .softReset := by decide

theorem test_decode_fecDecode : decode 0b0001_0000_0000_0000_0000_0000_0000_1011 = .ok (.fecDecode .rs2412) := by decide

theorem test_decode_fecEncode : decode 0b0001_0001_0000_0000_0000_0000_0000_1010 = .ok (.fecEncode .qr167) := by decide

theorem test_decode_convStart : decode 0b0010_0000_0000_0000_0000_0000_0000_0000 = .ok .convStart := by decide

theorem test_decode_convStep : decode 0b0010_0001_0000_0000_1000_0000_0000_0001 = .ok (.convStep 0x80 0x01) := by decide

theorem test_decode_convChainback : decode 0b0010_0010_0000_0000_0000_0001_0010_1101 = .ok (.convChainback 301) := by decide

theorem test_decode_convEncode : decode 0b0010_0011_0000_0000_0000_0000_0001_0000 = .ok (.convEncode 16) := by decide

theorem test_decode_trellis12 : decode 0b0011_0000_0000_0000_0000_0000_0000_0000 = .ok .trellis12 := by decide

theorem test_decode_pushSymbol : decode 0b0100_0000_0000_0000_0000_0000_0000_0010 = .ok (.pushSymbol 2) := by decide

theorem test_decode_pushSample : decode 0b0100_0001_0000_0000_1000_0000_0000_0000 = .ok (.pushSample 0x8000) := by decide

theorem test_decode_resync : decode 0b0100_0010_0000_0000_0000_0000_0000_0001 = .ok (.resync true) := by decide

theorem test_decode_syncReset : decode 0b0100_0011_0000_0000_0000_0000_0000_0000 = .ok .syncReset := by decide

theorem test_decode_deint : decode 0b0101_0000_0000_0000_0000_0000_0000_0110 = .ok (.deint 6) := by decide

theorem test_decode_pack : decode 0b0101_0001_0000_1000_0010_0000_0110_0000 = .ok (.pack 96 32 8) := by decide

/-- The order of 30_encoding.md R114, and the reserved places R119, R120, R123. -/
theorem test_decode_illegal : decode 0x31000000 = .error .undefinedOp ∧ decode 0x02000000 = .error .undefinedOp ∧
    decode 0xF0000001 = .error .undefinedOp ∧ decode 0x00000001 = .error .reservedBit ∧
    decode 0x1000001C = .error .reservedBit ∧ decode 0x51008000 = .error .reservedBit ∧
    decode 0x51000080 = .error .reservedBit ∧ decode 0x51100000 = .error .reservedBit ∧
    decode 0x1000000F = .error .illegalField ∧ decode 0x1100000B = .error .illegalField := by decide

/-- The words of a row's encoder are those of R126. -/
theorem test_encode : encode (.pack 0 32 1) = 0x51012000 ∧ encode (.convStep 2 0) = 0x21000200 ∧
    encode (.fecDecode .gol2412) = 0x10000007 ∧ encode (.pushSample 0xFFFF) = 0x4100FFFF := by decide

/-- A word in the queue is what the next step runs, from reset and whatever the configuration is. -/
theorem test_withFetchWord : step (State.reset.withFetchWord 32 0x20000000) = exec .convStart State.reset := rfl

/-! The commands: NOP, SOFT_RESET. -/

/-- 45_system.md R310. -/
theorem test_nop : exec .nop full = .next full := rfl

/-- V-SYS-1: STATUS = 0x00000004, and CTRL keeps 0x1FF. -/
theorem test_softReset : run .softReset ((withSync (inFrame false 24)).signal .sync) (fun t => (t.statusWord, t.ctl.ctrl, t.sync.info)) =
    some (0x00000004, 0x1FF, SyncInfo.zero) := by decide +kernel

/-! The block FEC unit. -/

/-- V-FEC-0, one error at c_0. -/
theorem test_fecDecode_ham74 : run (.fecDecode .ham74) (withOpd 0x15) (fun t => (t.fec.res, t.fec.info, t.fec.syn, t.fec.fecRes.word)) =
    some (0x55, 0xA, 0x6, 0x103) := by decide +kernel

/-- V-FEC-10, three errors: detected, EV_FEC_FAIL. -/
theorem test_fecDecode_fails : run (.fecDecode .qr167) (withOpd 0x3742) (fun t => (t.fec.res, t.fec.info, t.fec.fecRes.ok, t.ctl.sticky)) =
    some (0x3742, 0x1B, false, 0x1000) := by decide +kernel

/-- V-FEC-7. -/
theorem test_fecEncode_gol2412 : run (.fecEncode .gol2412) (withOpd 0xA5C) (fun t => (t.fec.res, t.fec.info, t.fec.syn, t.fec.fecRes.word)) =
    some (0xA5CAB2, 0xA5C, 0, 0x077) := by decide +kernel

/-- V-FEC-12: FEC_ENCODE of RS_24_12, here as a term. -/
theorem test_fecEncode_rs : run (.fecEncode .rs2412) start (fun t => (t.ctl.sticky, t.ctl.errCode, t.ctl.errInfo, t.fec.fecRes.word)) =
    some (0x00010000, 1, 0x1100000B, 0) := by decide +kernel

/-- V-FEC-11: the RS stub leaves the operand, and marks itself. -/
theorem test_fecDecode_rs : run (.fecDecode .rs2412) (withOpd 0xFF0000FFFFA5A576543210FEDCBA980123456789ABCDEF)
    (fun t => (t.fec.res, t.fec.info, t.fec.fecRes.word)) =
    some (0xA5A576543210FEDCBA980123456789ABCDEF, 0xA5A576543210FEDCBA, 0xBB) := by decide +kernel

/-! The model fault UNWRITTEN (10_state.md R62, U1). -/

/-- After power-on FEC_DECODE names itself and OPD bit 0; with the first OPD word written, BCH_63_16 stops at bit 32. -/
theorem test_unwritten_fec : stop (exec (.fecDecode .ham74) start) = some (.unwritten (.fecDecode .ham74) .opd 0) ∧
    stop (exec (.fecDecode .bch6316) (writeReg start 0 (.opd 0))) = some (.unwritten (.fecDecode .bch6316) .opd 32) := by
  decide +kernel

/-- With DIN[0..97] written and DIN[98..127] unwritten, as in the P25 program of 95_test_vectors.md, DEINT 0 runs, and a PACK
that reads DIN[98] stops. -/
theorem test_unwritten_dil :
    let s := withDin.setUnwritten { withDin.unwritten with din := Vector.ofFn (fun i : Fin 128 => if 98 ≤ i.val then 3 else 0) }
    run (.deint 0) s (fun t => t.trl.tin.getD 97 0) = some 3 ∧
      stop (exec (.pack 96 4 0) s) = some (.unwritten (.pack 96 4 0) .din 98) := by decide +kernel

/-! The Viterbi unit. -/

/-- 41_viterbi.md R181. -/
theorem test_convStart : run .convStart full (fun t => t.vit.dp) = some 0 := by decide +kernel

/-- V-VIT-4. -/
theorem test_convStep : run (.convStep 0 0) start (fun t => (t.vit.dp, t.vit.dec.getD 0 0, t.vit.pm.toList)) =
    some (1, 0xD7BE, [0, 0, 2, 2, 2, 2, 0, 0, 2, 2, 0, 0, 0, 0, 2, 2]) := by decide +kernel

/-- V-VIT-5: the metrics wrap modulo 2^16. -/
theorem test_convStep_wraps : run (.convStep 255 255) start (fun t => (t.vit.dec.getD 0 0, t.vit.pm.toList)) =
    some (0xAAAA, [510, 510, 508, 508, 508, 508, 510, 510, 508, 508, 506, 506, 506, 506, 508, 508]) := by decide +kernel

/-- V-VIT-2: the last two bits of its chainback, from the decision words of steps 14 and 15. -/
theorem test_convChainback : run (.convChainback 2)
    (allWritten (start.setVit { start.vit with dp := 2, dec := (start.vit.dec.set 0 0xFB7F).set 1 0x14B0 }))
    (fun t => (t.vit.dp, t.vit.cout.getLsbD 1, t.vit.cout.getLsbD 0)) = some (0, false, true) := by decide +kernel

/-- V-VIT-3: NBITS > DP. -/
theorem test_convChainback_range : run (.convChainback 301) full (fun t => (t.vit.dp, t.ctl.errCode, t.ctl.errInfo)) =
    some (300, 3, 0x2200012D) := by decide +kernel

/-- V-VIT-1: CIN bytes B2 E0 give CENC word 0x1C82FAD8. -/
theorem test_convEncode : run (.convEncode 16) (writeReg start 0x0000E0B2 (.cin 0)) (fun t => readReg t (.cenc 0)) =
    some 0x1C82FAD8 := by decide +kernel

/-! The trellis unit. -/

/-- V-TRL-3: a tie at step 0. -/
theorem test_trellis12_tie : run .trellis12 (allWritten start) (fun t => (t.trl.trlRes.word, t.ctl.sticky)) = some (0x00000001, 0x2000) := by
  decide +kernel

/-- V-TRL-1: the dibits of its block. -/
def tsbk : List Dibit :=
  [0,2,0,2,3,0,0,3,1,1,0,2,0,2,0,2,0,2,3,0,3,2,0,1,2,1,3,3,2,3,3,2,3,0,0,0,0,0,3,1,1,3,0,3,1,2,2,1,0] ++
  [1,1,3,3,1,2,2,2,2,1,0,2,0,1,1,3,3,2,3,0,3,1,2,1,0,2,0,1,1,0,2,3,0,0,0,0,0,0,0,3,1,2,2,2,2,2,2,2,1]

/-- V-TRL-1: TRL_RES and the words of TOUT. -/
theorem test_trellis12 : run .trellis12
    (allWritten (start.setTrl { start.trl with tin := Vector.ofFn (fun i : Fin 128 => tsbk.getD i.val 0) }))
    (fun t => (t.trl.trlRes.word, readReg t (.tout 0), readReg t (.tout 1), readReg t (.tout 2))) =
    some (0x003F3103, 0x34120007, 0xBC9A7856, 0xAA55F0DE) := by decide +kernel

/-! The sync unit and the frame path. -/

/-- V-SYNC-1: the 42nd symbol declares entry 0. -/
theorem test_pushSymbol_declares : run (.pushSymbol 3) (withSync (searching almostP25 41))
    (fun t => (t.statusWord, t.sync.info.word, t.sync.frameCnt, readReg t (.win 0), readReg t (.win 1))) =
    some (0x00000121, 0x00000181, 24, 0xF5FF77FF, 0x00005575) := by decide +kernel

/-- V-SYNC-2: a frame dibit 3 of an inverted frame is captured as 1. -/
theorem test_pushSymbol_captures : run (.pushSymbol 3) (withSync (inFrame true 24))
    (fun t => (t.sync.state, t.sync.frameCnt, t.dil.din.getD 0 0, t.dil.capPtr)) = some (.locked, 25, 1, 1) := by decide +kernel

/-- V-SYNC-14: at FRAME_CNT 36 a dibit 2 is diverted to STAT. -/
theorem test_pushSymbol_diverts : run (.pushSymbol 2) (withSync (inFrame false 35))
    (fun t => (t.dil.statWord, t.dil.capPtr, t.ctl.sticky)) = some (0x00000102, 0, 0x800) := by decide +kernel

/-- V-SYNC-12: the fifth zero sample at SQ_THRESH = 5. -/
theorem test_pushSample_squelch :
    run (.pushSample 0) ((withSync { inFrame false 24 with sqCnt := 4 }).setCtl { start.ctl with sqThresh := 5, sticky := 0x100 })
    (fun t => (t.statusWord, t.sync.info, t.sync.sqCnt)) = some (0x00000500, SyncInfo.zero, 0) := by decide +kernel

/-- 43_sync.md R248, R249: RESYNC 0 keeps the NXDN count. -/
theorem test_resync : run (.resync false) (withSync { inFrame true 40 with nxdnValid := true, nxdnCnt := 7 })
    (fun t => (t.sync.state, t.sync.pol, t.sync.nxdnValid, t.sync.nxdnCnt)) = some (.look, false, true, 7) := by decide +kernel

/-- V-SYS-2, and 43_sync.md R250: the sticky bits stay. -/
theorem test_syncReset : run .syncReset ((withSync (inFrame true 40)).signal .sync) (fun t => (t.statusWord, t.sync.vcnt)) =
    some (0x00000104, 0) := by decide +kernel

/-! The deinterleave unit. -/

/-- V-DIL-1: TIN[0..3], TIN[24..29] and TIN[97]. -/
theorem test_deint : run (.deint 0) withDin (fun t => ((List.range 4).map (t.trl.tin.getD · 0),
    (List.range' 24 6).map (t.trl.tin.getD · 0), t.trl.tin.getD 97 0)) = some ([0, 1, 0, 1], [0, 1, 2, 3, 2, 3], 3) := by
  decide +kernel

/-- V-DIL-2: PACK 0, 127, 8. -/
theorem test_pack : run (.pack 0 127 8) withDin (fun t => (readReg t (.opd 0), readReg t (.opd 6), readReg t (.opd 7))) =
    some (0xC6C6C6C6, 0xC6C6C6C6, 0x0006C6C6) := by decide +kernel

/-- V-DIL-2: PACK 97, 32, 0. -/
theorem test_pack_range : run (.pack 97 32 0) withDin (fun t => (t.fec.opd, t.ctl.errCode, t.ctl.sticky)) =
    some (0, 3, 0x40000) := by decide +kernel

/-! The bus. -/

/-- V-SYS-3. -/
theorem test_read : host (.read 0x0000 .w32) start State.rdata = some 0x44534301 ∧
    host (.read 0x0050 .w32) start State.rdata = some 0x00010518 ∧
    host (.read 0x000C .w32) start (fun t => (t.rdata, t.ctl.sticky)) = some (0, 0) := by decide +kernel

/-- 10_state.md R62 and U2: after a write of one DIN word, a read of it gives the written dibits whatever the free values
are, and takes none. -/
theorem test_read_written : host (.read 0x0200 .w32) (writeReg start 0xFFFFFF02 (.din 0)) (fun t => (t.rdata, t.draws)) =
    some (0x03030302, 1) := by decide +kernel

/-- 10_state.md R62: a read of an unwritten word takes a free value. -/
theorem test_read_unwritten : host (.read 0x0204 .w32) (writeReg start 0 (.din 0)) State.draws = some 2 := by decide +kernel

/-- 20_memory.md R92: a read at a misaligned offset. -/
theorem test_read_bad : host (.read 0x0102 .w32) start (fun t => (t.rdata, t.ctl.sticky, t.ctl.errCode, t.ctl.errInfo)) =
    some (0, 0x100000, 5, 0x102) := by decide +kernel

/-- 20_memory.md R87 and R89: STATUS clears what is written with 1; CAP_PTR refuses 129. -/
theorem test_write : host (.write 0x0008 .w32 0x100) ((start.signal .sync).signal .status) (fun t => t.ctl.sticky) = some 0x800 ∧
    host (.write 0x0038 .w32 129) start (fun t => (t.dil.capPtr, t.ctl.errCode, t.ctl.errInfo)) = some (0, 3, 129) := by
  decide +kernel

/-! Witnesses: for each statement of Certificates/Slice0/Obligations.lean with hypotheses, values that meet them. -/

theorem witness_DecodeOfEncode : (Instr.fecEncode .qr167).wellFormed = true ∧ (Instr.pack 127 127 15).wellFormed = true := by decide

theorem witness_EncodeOfDecode : decode 0x51012000 = .ok (.pack 0 32 1) := by decide

/-- Each cause of 30_encoding.md R114, at the edges of its range. -/
theorem witness_IllegalWordOnlyRecordsErrIllegal : [0x02000000, 0x12000000, 0x24000000, 0x31000000, 0x44000000,
    0x52000000, 0x60000000, 0xFFFFFFFF, 0x00000001, 0x01800000, 0x10000010, 0x21010000, 0x22000200, 0x40000004, 0x41010000,
    0x42000002, 0x50000008, 0x51000080, 0x51008000, 0x51100000, 0x1000000C, 0x1000000F, 0x1100000B, 0x1100000F, 0x50000001,
    0x50000007].all (illegalWord start.cfg) = true := by decide +kernel

theorem witness_LegalWordExecutesItsCommand : [0x00000000, 0x01000000, 0x1000000B, 0x1100000A, 0x20000000, 0x2100FFFF,
    0x220001FF, 0x230001FF, 0x30000000, 0x40000003, 0x4100FFFF, 0x42000001, 0x43000000, 0x50000000, 0x510F7F7F].all
    (fun v => !illegalWord start.cfg v) = true := by decide +kernel

theorem witness_StepRunsDecodedCommand : start.rstN = true ∧
    (start.setPending [cmdWrite 0x20000000, .resetLow]).pending = cmdWrite 0x20000000 :: [.resetLow] ∧
    decode 0x20000000 = .ok .convStart := by decide +kernel

/-- A word that does not decode: "0x00000001 is illegal, not a NOP" (45_system.md R310). -/
theorem witness_StepRunsDecodedCommand_illegal :
    (start.setPending [cmdWrite 0x00000001]).pending = cmdWrite 0x00000001 :: [] ∧
    decode 0x00000001 = .error .reservedBit := by decide +kernel

/-- The three grounds of a bad read, and the one more of a bad write, at the edges of the map (20_memory.md R88, R92). -/
theorem witness_BadAccessOnlyRecordsErrBus : start.rstN = true ∧ AccessWidth.w16 ≠ .w32 ∧ (0x0001 : Offset).toNat % 4 ≠ 0 ∧
    [0x0054, 0x007C, 0x00C0, 0x0158, 0x0170, 0x0310, 0x0380, 0x0500, 0x14B0, 0x1FFC].all (fun o => !mappedOffset o) = true ∧
    [0x0000, 0x0018, 0x0034, 0x003C, 0x0050, 0x0080, 0x0120, 0x0300, 0x0340, 0x0440, 0x04FC, 0x1000].all
      (fun o => !writableOffset o) = true := by decide +kernel

theorem witness_GoodAccessHasNoSideEffect : start.rstN = true ∧ (0x14AC : Offset).toNat % 4 = 0 ∧
    [0x0000, 0x0050, 0x0080, 0x0154, 0x016C, 0x030C, 0x037C, 0x04FC, 0x14AC].all mappedOffset = true ∧
    [0x0004, 0x0010, 0x0014, 0x0100, 0x011C, 0x0200, 0x02FC, 0x0400, 0x043C].all plainWrite = true := by decide +kernel

theorem witness_ScalarRegistersRead : start.rstN = true := rfl

theorem witness_FieldRegistersRead : start.rstN = true := rfl

/-- A word of each kind whose elements hold no value, and one that holds a value after a bus write. -/
theorem witness_BufferWordsRead : start.rstN = true ∧ start.unwritten.opd.getLsbD 255 = true ∧
    (start.unwritten.dec.getD 299 0).getLsbD 15 = true ∧ (start.unwritten.dec.getD 299 0).getLsbD 16 = false ∧
    (start.unwritten.din.getD 127 0).getLsbD 1 = true ∧
    ((writeReg start 0 (.din 31)).unwritten.din.getD 127 0).getLsbD 1 = false ∧
    (writeReg start 0 (.opd 7)).unwritten.opd.getLsbD 255 = false := by decide +kernel

/-- Words with free bits at the ends of the buffers, and the words of TDIB and TOUT where the fixed elements begin. -/
theorem witness_UnwrittenBitsReadFree : start.rstN = true ∧
    start.unwritten.opd.getLsbD (32 * 7 + 31) = true ∧ start.unwritten.syn.getLsbD (32 * 1 + 31) = true ∧
    (start.unwritten.dec.getD 299 0).getLsbD 15 = true ∧ (start.unwritten.dec.getD 299 0).getLsbD 16 = false ∧
    start.unwritten.cenc.getLsbD (32 * 31 + 31) = true ∧
    (start.unwritten.din.getD (4 * 31 + 3) 0).getLsbD 1 = true ∧ (start.unwritten.din.getD (4 * 31 + 3) 0).getLsbD 2 = false ∧
    (start.unwritten.tdib.getD (4 * 12) 0).getLsbD 0 = true ∧ (start.unwritten.tdib.getD (4 * 12 + 1) 0).getLsbD 0 = false ∧
    (start.unwritten.tout.getD (4 * 2 + 3) 0).getLsbD 7 = true ∧ (start.unwritten.tout.getD (4 * 3) 0).getLsbD 7 = false ∧
    (List.range 32).any (fun i => (writeReg start 5 (.opd 0)).unwritten.opd.getLsbD i) = false := by decide +kernel

/-- One offset for each case of the word that is read back. -/
theorem witness_WriteIsReadBack : start.rstN = true ∧
    [0x0004, 0x0010, 0x0014, 0x0200, 0x02FC, 0x0100, 0x043C].all plainWrite = true := by decide +kernel

theorem witness_WriteLeavesOtherWords : start.rstN = true ∧ (0x0100 : Offset).toNat % 4 = 0 ∧ (0x0014 : Offset).toNat % 4 = 0 ∧
    writableOffset (0x0100 : Offset).toNat = true ∧ (0x0100 : Offset) ≠ 0x0008 ∧ (0x0100 : Offset) ≠ 0x000C ∧
    (0x0100 : Offset) ≠ 0x0038 ∧ mappedOffset (0x0014 : Offset).toNat = true ∧ (0x0100 : Offset) ≠ 0x0014 := by decide +kernel

theorem witness_WriteLeavesOtherWords_read : readsAs start (0x0014 : Offset).toNat 0 := ⟨1, rfl⟩

theorem witness_StatusWriteClearsOnes : start.rstN = true ∧ readsAs start 0x0008 0x04 := ⟨rfl, 1, rfl⟩

theorem witness_CapPtrWrite : start.rstN = true ∧ (128 : Word).toNat ≤ 128 ∧ 128 < (129 : Word).toNat := by decide +kernel

theorem witness_IrqIsTheEnabledStatusBits : inReset.rstN = false ∧ start.rstN = true ∧ readsAs start 0x0008 0x04 ∧
    readsAs start 0x0010 0 := ⟨rfl, rfl, ⟨1, rfl⟩, 1, rfl⟩

theorem witness_NothingHappensWithoutAnAccess : start.pending = [] ∧ inReset.rstN = false ∧ start.rstN = true :=
  ⟨rfl, rfl, rfl⟩

theorem witness_ReleasedResetState : inReset.rstN = false := rfl

theorem witness_NopIsTheOnlyNop : (0x00000001 : Word).extractLsb' 24 8 = 0 ∧ (0x00000001 : Word) ≠ 0 := by decide

theorem witness_SyndromeIsTheParityCheck : Code.bch6316 ≠ .rs2412 ∧ Config.ex.rowsOk .bch6316 = true := by decide +kernel

theorem witness_EncodedWordIsSystematic : Code.ham74 ≠ .rs2412 ∧ Config.ex.rowsOk .ham74 = true := by decide +kernel

/-- An error word with a table entry, and its syndrome. -/
theorem witness_SyndromeTableHoldsLeastWeight : Code.ham74.hasTable = true ∧ (0x40 : Vec).toNat < 2 ^ Code.ham74.n ∧
    (0x40 : Vec) ≠ 0 ∧ popcount (0x40 : Vec) ≤ Config.ex.depth .ham74 ∧ Config.ex.syndrome .ham74 0x40 = 0x6 ∧
    (0x6 : BitVec 64) ≠ 0 ∧ syndromeTable Config.ex .ham74 0x6 = some 0x40 := by decide +kernel

/-- One OPD word written is enough for a code of at most 32 bits. -/
theorem witness_FecDecodeOfTableCode : Code.gol24128.hasTable = true ∧
    (∀ i, i < Code.gol24128.n → (writeReg start 0 (.opd 0)).unwritten.opd.getLsbD i = false) ∧
    (writeReg start 0 (.opd 0)).unwritten.opd.getLsbD 32 = true := by decide +kernel

theorem witness_FecDecodeOfStub : Code.bch6316 = .bch6316 ∧ Code.rs2412 = .rs2412 ∧
    ∀ i, i < Code.rs2412.n → (withOpd 0).unwritten.opd.getLsbD i = false := by decide +kernel

theorem witness_FecEncodeResult : Code.bch6316 ≠ .rs2412 ∧ Code.rs2412 = .rs2412 ∧
    ∀ i, i < Code.bch6316.k → (writeReg start 0 (.opd 0)).unwritten.opd.getLsbD i = false := by decide +kernel

theorem witness_DecodeOfEncodedWord : (withOpd 0xA).cfg.rowsOk .ham74 = true ∧ Code.ham74.hasTable = true ∧
    ∀ i, i < Code.ham74.k → (withOpd 0xA).unwritten.opd.getLsbD i = false := by decide +kernel

/-- V-FEC-5 with three errors, the full depth of GOL_20_8. -/
theorem witness_UpToDepthErrorsAreCorrected : (withOpd 0x3776B).cfg.wf = true ∧ Code.gol208.hasTable = true ∧
    (0x92000 : Vec).toNat < 2 ^ Code.gol208.n ∧ 1 ≤ popcount (0x92000 : Vec) ∧
    popcount (0x92000 : Vec) ≤ (withOpd 0x3776B).cfg.depth .gol208 ∧
    codeword .gol208 (withOpd 0x3776B).fec.opd = (withOpd 0x3776B).cfg.encodeWord .gol208 0xA5 ^^^ 0x92000 ∧
    (∀ i, i < Code.gol208.n → (withOpd 0x3776B).unwritten.opd.getLsbD i = false) := by
  refine ⟨Config.ex_wf, rfl, by decide +kernel, by decide +kernel, ?_, by decide +kernel, by decide +kernel⟩
  show popcount (0x92000 : Vec) ≤ (Config.ex.dmin .gol208 - 1) / 2
  rw [Config.ex_dmin_gol208]
  decide +kernel

theorem witness_FecDecodeOutcomes : (withOpd 0x3742).cfg.wf = true ∧ Code.qr167.hasTable = true ∧
    ∃ t, exec (.fecDecode .qr167) (withOpd 0x3742) = .next t := ⟨Config.ex_wf, rfl, _, rfl⟩

/-- Two states that agree in the bits the code reads and differ above them (V-FEC-13). -/
theorem witness_FecOutcomeOnlyOfOperand : (withOpd 0x55).cfg = (withOpd 0xFF00000055).cfg ∧
    (∀ i, i < Code.ham74.n → (withOpd 0x55).fec.opd.getLsbD i = (withOpd 0xFF00000055).fec.opd.getLsbD i) ∧
    (∀ i, i < Code.ham74.k → (withOpd 0x55).fec.opd.getLsbD i = (withOpd 0xFF00000055).fec.opd.getLsbD i) ∧
    (∃ t, exec (.fecDecode .ham74) (withOpd 0x55) = .next t) ∧ (∃ t, exec (.fecDecode .ham74) (withOpd 0xFF00000055) = .next t) ∧
    (∃ t, exec (.fecEncode .ham74) (withOpd 0x55) = .next t) ∧ (∃ t, exec (.fecEncode .ham74) (withOpd 0xFF00000055) = .next t) :=
  ⟨rfl, by decide +kernel, by decide +kernel, ⟨_, rfl⟩, ⟨_, rfl⟩, ⟨_, rfl⟩, ⟨_, rfl⟩⟩

theorem witness_ConvStartState : (0x20000001 : Word).extractLsb' 24 8 = 0x20 ∧ (0x20000001 : Word) ≠ 0x20000000 := by decide

theorem witness_ConvStepButterflies : start.vit.dp < 300 := by decide +kernel

theorem witness_ConvStepAtCapacity : full.vit.dp = 300 := rfl

/-- NBITS = DP = 300, the largest. -/
theorem witness_ConvChainbackTrace : (300 : BitVec 9).toNat ≤ full.vit.dp ∧
    ∀ j, j < 300 → full.unwritten.dec.getD j 0 = 0 := by decide +kernel

theorem witness_ConvChainbackBeyondDp : full.vit.dp < (301 : BitVec 9).toNat := by decide +kernel

theorem witness_ConvEncodeTaps : (300 : BitVec 9).toNat ≤ 300 ∧
    ∀ i, i < (300 : BitVec 9).toNat → (allWritten start).unwritten.cin.getLsbD i = false := by decide +kernel

theorem witness_ConvEncodeBeyondCapacity : 300 < (301 : BitVec 9).toNat := by decide

/-- The last window position that is shifted in, and the first beyond the window. -/
theorem witness_PushSymbolShiftsTheWindow : 0 < start.cfg.nW ∧ 22 + 1 < start.cfg.nW ∧ start.cfg.nW ≤ 24 := by decide +kernel

/-- A clean codeword of the path, and a tie: V-TRL-1 and V-TRL-3. -/
theorem witness_Trellis12Path : trellisNext Config.ex 0 0b0010 = some 0 ∧ trellisNext Config.ex 0 0b0000 = none ∧
    ∀ i, i < 98 → (allWritten start).unwritten.tin.getD i 0 = 0 := by decide +kernel

/-- V-SYNC-1 at its 42nd symbol: entry 0, with nothing before it. -/
theorem witness_FirstAcceptedEntryIsDeclared : (withSync (searching almostP25 41)).sync.state = .look ∧
    18 ≤ (withSync (searching almostP25 41)).sync.warmT ∧
    (withSync (searching almostP25 41)).cfg.syncTable = [] ++ Config.exSyncTable.head (by decide) :: Config.exSyncTable.tail ∧
    entryAccepted (withSync (searching almostP25 41)).ctl ((searching almostP25 41).afterSymbol Config.ex.nW 3)
      (Config.exSyncTable.head (by decide)) = true := by decide +kernel

/-- A symbol of the warm-up, and one after it that matches no entry, as the 1800th and before. -/
theorem witness_NoMatchCountsTo1800 : start.sync.state = .look ∧ start.sync.warmT < 18 ∧
    (withSync (searching quiet 1799)).sync.state = .look ∧ (withSync (searching quiet 1799)).sync.searchCnt = 1799 ∧
    start.sync.searchCnt ≠ 1799 ∧
    ∀ e ∈ Config.exSyncTable, entryAccepted (withSync (searching quiet 1799)).ctl
      ((searching quiet 1799).afterSymbol Config.ex.nW 0) e = false := by decide +kernel

/-- A status turn; and symbols that are none, captured, dropped and let go. -/
theorem witness_FrameDibitPath : (withSync (inFrame false 35)).sync.state ≠ .look ∧
    (withSync (inFrame false 35)).sync.stEn = true ∧ ((withSync (inFrame false 35)).sync.frameCnt.toNat + 1) % 2 ^ 32 % 36 = 0 ∧
    ((withSync (inFrame false 24)).sync.frameCnt.toNat + 1) % 2 ^ 32 % 36 ≠ 0 ∧
    (withSync (inFrame false 24)).ctl.ctrl.getLsbD 8 = true ∧ (withSync (inFrame false 24)).dil.capPtr < 128 ∧
    ((withSync (inFrame false 24)).setDil { start.dil with capPtr := 128 }).dil.capPtr = 128 ∧
    (start.setSync (inFrame false 24)).ctl.ctrl.getLsbD 8 = false := by decide +kernel

/-- A zero sample in a frame, below and at a threshold of 1, and a sample in LOOK. -/
theorem witness_SquelchTimeout : (withSync (inFrame false 24)).sync.state ≠ .look ∧ (withSync (inFrame false 24)).ctl.sqThresh = 0 ∧
    ((withSync (inFrame false 24)).setCtl { start.ctl with sqThresh := 1 }).ctl.sqThresh ≠ 0 ∧
    (1 : Word).toNat ≤ min ((withSync (inFrame false 24)).sync.sqCnt.toNat + 1) (2 ^ 32 - 1) ∧
    start.sync.state = .look := by decide +kernel

theorem witness_DeintGathers : start.cfg.perm.getD (0 : BitVec 3).toNat [] ≠ [] ∧
    (start.cfg.perm.getD (0 : BitVec 3).toNat []).length = 98 ∧ start.cfg.perm.getD (7 : BitVec 3).toNat [] = [] ∧
    ∀ k ∈ withDin.cfg.perm.getD (0 : BitVec 3).toNat [], withDin.unwritten.din.getD k 0 = 0 := by decide +kernel

/-- OFF + CNT = 128, and SHR beyond 2·CNT. -/
theorem witness_PackBits : (32 : BitVec 7) ≠ 0 ∧ (96 : BitVec 7).toNat + (32 : BitVec 7).toNat ≤ 128 ∧
    2 * (1 : BitVec 7).toNat ≤ 0 + (15 : BitVec 4).toNat ∧ 0 < (32 : BitVec 7).toNat ∧
    63 + (0 : BitVec 4).toNat = 2 * ((32 : BitVec 7).toNat - 1 - 0) + 1 ∧
    ∀ j, j < 32 → withDin.unwritten.din.getD (96 + j) 0 = 0 := by decide +kernel

theorem witness_PackOutOfRange : (0 : BitVec 7) = 0 ∧ 128 < (97 : BitVec 7).toNat + (32 : BitVec 7).toNat := by decide

/-- Of every command that reads a buffer, the last element it reads, unwritten (10_state.md R62). -/
theorem witness_UnwrittenReadFaults :
    (readsElement start (.fecDecode .rs2412) .opd 143 ∧ holdsNoValue start .opd 143) ∧
    (readsElement start (.fecEncode .bch6316) .opd 15 ∧ holdsNoValue start .opd 15) ∧
    (readsElement start (.convEncode 300) .cin 299 ∧ holdsNoValue start .cin 299) ∧
    (readsElement start .trellis12 .tin 97 ∧ holdsNoValue start .tin 97) ∧
    (readsElement start (.deint 0) .din 95 ∧ holdsNoValue start .din 95) ∧
    readsElement start (.pack 97 31 0) .din 127 ∧ holdsNoValue start .din 127 := by
  refine ⟨⟨?_, ?_⟩, ⟨?_, ?_⟩, ⟨?_, ?_⟩, ⟨?_, ?_⟩, ⟨?_, ?_⟩, ?_, ?_⟩ <;>
    first | (unfold readsElement; decide +kernel) | (unfold holdsNoValue; decide +kernel)

/-- A command that reads nothing unwritten, with the elements around its operands unwritten. -/
theorem witness_UnwrittenReadFaults_written : ∀ b k, readsElement (writeReg start 0 (.din 1)) (.pack 4 4 0) b k →
    ¬ holdsNoValue (writeReg start 0 (.din 1)) b k := by
  have h : ∀ k, k < 8 → 4 ≤ k → (writeReg start 0 (.din 1)).unwritten.din.getD k 0 = 0 := by decide +kernel
  intro b k hk
  cases b <;> first | exact hk.elim | exact fun hn => hn (h k hk.2.2 hk.2.1)

/-- A decision word below DP that holds no value: R186 (e) rules such states out. -/
theorem witness_UnwrittenReadFaults_dec :
    readsElement (start.setVit { start.vit with dp := 1 }) (.convChainback 1) .dec 0 ∧
    holdsNoValue (start.setVit { start.vit with dp := 1 }) .dec 0 := by
  refine ⟨?_, ?_⟩ <;>
    first | (unfold readsElement; decide +kernel) | (unfold holdsNoValue; decide +kernel)

theorem witness_ConfigurationNeverChanges : ∃ t, step (start.offer .resetLow) = .next t := ⟨_, rfl⟩

theorem witness_OneReportPerCommand : (∃ t, issue 0x01000000 start = .next t) ∧ ∃ t, issue 0x60000000 start = .next t :=
  ⟨⟨_, rfl⟩, ⟨_, rfl⟩⟩

theorem witness_FailedCommandChangesNothingElse : (0x60000000 : Word) ≠ 0x01000000 ∧ ∃ t, issue 0x60000000 start = .next t :=
  ⟨by decide, _, rfl⟩

/-- In LOCKED, with a squelch threshold of 1. -/
def locked : State :=
  (withSync { inFrame false 24 with state := .locked }).setCtl { start.ctl with sqThresh := 1 }

/-- Each cause of R255: a squelch timeout, RESYNC, SYNC_RESET and SOFT_RESET, and a symbol that stays in LOCKED. -/
theorem witness_LockedIsLeftOnlyByReturns : locked.sync.state = .locked ∧
    [0x41000000, 0x42000000, 0x42000001, 0x43000000, 0x01000000].all
      (fun v => host (cmdWrite v) locked (fun t => t.sync.state) == some .look) = true ∧
    host (cmdWrite 0x40000001) locked (fun t => t.sync.state) = some .locked := by decide +kernel

/-- The reset through RST_N (log 8). -/
theorem witness_LockedIsLeftOnlyByReturns_reset : (locked.setRstN false).sync.state = .locked ∧
    host .resetHigh (locked.setRstN false) (fun t => t.sync.state) = some .look := ⟨rfl, rfl⟩

theorem witness_LookIsLeftOnlyByDeclaration : ((withSync (searching almostP25 41)).offer (cmdWrite 0x40000003)).sync.state = .look ∧
    ∃ t, step ((withSync (searching almostP25 41)).offer (cmdWrite 0x40000003)) = .next t ∧ t.sync.state ≠ .look :=
  ⟨rfl, _, rfl, by decide +kernel⟩

/-- The power-on state of EX meets the invariant, and a step takes it on. -/
theorem witness_StepKeepsInvariant : (start.offer .resetLow).Inv ∧ ∃ t, step (start.offer .resetLow) = .next t := by
  refine ⟨?_, _, rfl⟩
  exact
    { cfgValid := Config.ex_wf
      stickyBits := by decide +kernel
      irqEnBits := by decide +kernel
      errCodeLe := by decide +kernel
      fecCodeLe := by decide +kernel
      nflipLe := by decide +kernel
      dpLe := by decide +kernel
      decHigh := by
        intro j
        by_cases hj : j < 300 <;> simp [start, State.offer, zeros, State.powerOn, Vector.getD, hj]
      tdibTail := by
        intro j hlow
        by_cases hj : j < 64 <;> simp [Array.getElem?_replicate, Nat.not_lt.mpr hlow, start, State.offer, zeros, State.powerOn, Vector.getD, hj]
      toutTail := by
        intro j hlow
        by_cases hj : j < 16 <;> simp [Array.getElem?_replicate, Nat.not_lt.mpr hlow, start, State.offer, zeros, State.powerOn, Vector.getD, hj]
      stepsLe := by decide +kernel
      windowLength := by decide +kernel
      vcntLe := by decide +kernel
      warmIsVcnt := by decide +kernel
      searchLt := by decide +kernel
      searchLook := fun _ => rfl
      frameWarm := fun h => absurd rfl h
      nxdnClear := fun _ => rfl
      lookClear := fun _ => ⟨rfl, rfl, rfl, rfl⟩
      frameInfo := fun h => absurd rfl h
      infoZero := fun _ => rfl
      capPtrLe := by decide +kernel
      decWritten := fun j hj => absurd hj (Nat.not_lt_zero j)
      decFree := by
        intro j
        by_cases hj : j < 300 <;> simp [start, State.offer, State.powerOn, Buffers.allUnwritten, Vector.getD, hj]
      tdibFree := by
        intro j hlow
        by_cases hj : j < 64 <;>
          simp [start, State.offer, State.powerOn, Buffers.allUnwritten, Vector.getD, hj, Nat.not_lt.mpr hlow]
      toutFree := by
        intro j hlow
        by_cases hj : j < 16 <;>
          simp [start, State.offer, State.powerOn, Buffers.allUnwritten, Vector.getD, hj, Nat.not_lt.mpr hlow] }

/-- A state with the invariant, for the last clause of UnwrittenReadFaults. -/
theorem witness_UnwrittenReadFaults_inv : (start.offer .resetLow).Inv ∧ (start.offer .resetLow).vit.dp = 0 :=
  ⟨witness_StepKeepsInvariant.1, rfl⟩

theorem witness_PowerOnState : State.powerOn Config.ex zeros = start := rfl

theorem witness_ResetMeetsInvariant : Config.ex.wf = true := Config.ex_wf

end Sys2Proof.Tests
end

section
/-! The state (10_state.md): what a command reads, what every step keeps, what the registers read as. -/

namespace Sys2Proof.Machine

/-! ## What a command reads and what it does

Every command is `State.reading` of its operand elements with one effect (10_state.md R62); the commands that read no
buffer read the empty list. -/

/-- The state a command leads to when the elements it reads hold values. -/
def effect : Instr → State → State
  | .nop, s => s
  | .softReset, s => softReset s
  | .fecDecode c, s => fecDecode c s
  | .fecEncode c, s => fecEncode c s
  | .convStart, s => s.setVit { s.vit with pm := Vector.replicate 16 0, dp := 0 }
  | .convStep s0 s1, s => convStep s0 s1 s
  | .convChainback n, s => convChainback n s
  | .convEncode n, s => convEncode n s
  | .trellis12, s => trellis12 s
  | .pushSymbol d, s => pushSymbol d s
  | .pushSample v, s => pushSample v s
  | .resync abort, s => s.setSync (s.sync.resync abort)
  | .syncReset, s => syncReset s
  | .deint slot, s => deint slot s
  | .pack off cnt shr, s => pack off cnt shr s

/-- The buffer a command reads; OPD stands for the commands that read none. -/
def operandBuffer : Instr → OperandBuffer
  | .fecDecode _ | .fecEncode _ => .opd
  | .convChainback _ => .dec
  | .convEncode _ => .cin
  | .trellis12 => .tin
  | .deint _ | .pack _ _ _ => .din
  | .nop | .softReset | .convStart | .convStep _ _ | .pushSymbol _ | .pushSample _ | .resync _ | .syncReset => .opd

/-- The elements of that buffer a command reads, none where its own check ends it. -/
def operandElements (s : State) : Instr → List Nat
  | .fecDecode c => List.range c.n
  | .fecEncode c => if c == .rs2412 then [] else List.range c.k
  | .convChainback n =>
    if s.vit.dp < n.toNat then [] else (List.range n.toNat).map (fun q => s.vit.dp - 1 - q)
  | .convEncode n => if decCap < n.toNat then [] else List.range n.toNat
  | .trellis12 => List.range 98
  | .deint slot => s.cfg.permOf slot.toNat
  | .pack off cnt _ => if packOutOfRange off cnt then [] else List.range' off.toNat cnt.toNat
  | .nop | .softReset | .convStart | .convStep _ _ | .pushSymbol _ | .pushSample _ | .resync _ | .syncReset => []

theorem exec_eq_reading (i : Instr) (s : State) :
    exec i s = s.reading i (operandBuffer i) (operandElements s i) (effect i s) := by
  cases i <;> rfl

/-- A command that answers a next state answers its effect. -/
theorem effect_of_exec_eq_next {i : Instr} {s t : State} (h : exec i s = .next t) : effect i s = t := by
  rw [exec_eq_reading, reading_eq_next_iff] at h
  exact h.2

/-- PACK reads DIN when CNT is not 0 and OFF + CNT stays within it (44_deinterleave.md R283). -/
theorem packOutOfRange_eq_false_iff (off cnt : BitVec 7) :
    packOutOfRange off cnt = false ↔ cnt ≠ 0 ∧ off.toNat + cnt.toNat ≤ 128 := by
  rw [packOutOfRange, Bool.or_eq_false_iff, decide_eq_false_iff_not, Nat.not_lt]
  simp [dinSize]

/-- Every command reads elements of one buffer only. -/
theorem eq_operandBuffer_of_readsElement {s : State} {i : Instr} {b : OperandBuffer} {k : Nat}
    (h : readsElement s i b k) : b = operandBuffer i := by
  unfold readsElement at h
  split at h
  case h_8 => exact h.elim
  all_goals rfl

/-- The elements that Sys2Proof/Safety.lean lists for a command are the ones its meaning reads. -/
theorem readsElement_operandBuffer_iff (s : State) (i : Instr) (k : Nat) :
    readsElement s i (operandBuffer i) k ↔ k ∈ operandElements s i := by
  cases i with
  | nop | softReset | convStart | convStep | pushSymbol | pushSample | resync | syncReset =>
    exact ⟨False.elim, fun h => absurd h List.not_mem_nil⟩
  | fecDecode c => exact List.mem_range.symm
  | fecEncode c => by_cases hc : c = .rs2412 <;> simp [readsElement, operandBuffer, operandElements, hc]
  | trellis12 => exact List.mem_range.symm
  | deint slot => exact Iff.rfl
  | convEncode n =>
    by_cases hn : 300 < n.toNat
    · simp [readsElement, operandBuffer, operandElements, decCap, hn, Nat.not_le.2 hn]
    · simp [readsElement, operandBuffer, operandElements, decCap, hn, Nat.not_lt.1 hn]
  | convChainback n =>
    by_cases hn : s.vit.dp < n.toNat
    · simp [readsElement, operandBuffer, operandElements, hn, Nat.not_le.2 hn]
    · simp only [readsElement, operandBuffer, operandElements, if_neg hn, List.mem_map, List.mem_range]
      exact ⟨fun ⟨_, hlo, hhi⟩ => ⟨s.vit.dp - 1 - k, by omega, by omega⟩, fun ⟨q, hq, hk⟩ => by omega⟩
  | pack off cnt shr =>
    cases hr : packOutOfRange off cnt with
    | true =>
      have hout : ¬ (cnt ≠ 0 ∧ off.toNat + cnt.toNat ≤ 128) := by
        rw [← packOutOfRange_eq_false_iff, hr]; decide
      simp only [readsElement, operandBuffer, operandElements, hr, if_true, List.not_mem_nil, iff_false]
      rintro ⟨hle, hlo, hhi⟩
      have hcnt : cnt ≠ 0 := by rintro rfl; exact absurd hhi (Nat.not_lt.2 hlo)
      exact hout ⟨hcnt, hle⟩
    | false =>
      obtain ⟨-, hle⟩ := (packOutOfRange_eq_false_iff off cnt).1 hr
      simp [readsElement, operandBuffer, operandElements, hr, hle]

theorem readsElement_iff (s : State) (i : Instr) (b : OperandBuffer) (k : Nat) :
    readsElement s i b k ↔ b = operandBuffer i ∧ k ∈ operandElements s i := by
  rw [← readsElement_operandBuffer_iff]
  exact ⟨fun h => ⟨eq_operandBuffer_of_readsElement h, eq_operandBuffer_of_readsElement h ▸ h⟩,
    fun ⟨hb, h⟩ => hb ▸ h⟩

/-- In every state of State.Inv the decision words below DP hold values, so CONV_CHAINBACK completes
(41_viterbi.md R186 (e)). -/
theorem exec_convChainback_of_inv {s : State} (h : s.Inv) (n : BitVec 9) :
    exec (.convChainback n) s = .next (convChainback n s) :=
  exec_convChainback (fun j _ hj => h.decWritten j hj)

/-- Settles O53: a command is `State.reading` of exactly the elements listed for it. -/
theorem unwrittenReadFaults : Obligations.UnwrittenReadFaults := by
  intro s i
  refine ⟨?_, ?_, fun hinv n => ⟨_, exec_convChainback_of_inv hinv n⟩⟩
  · rintro ⟨b, k, hread, hno⟩
    obtain ⟨rfl, hk⟩ := (readsElement_iff s i b k).1 hread
    rw [holdsNoValue_iff] at hno
    rcases reading_cases s i (operandBuffer i) (operandElements s i) (effect i s) with
      ⟨hall, -⟩ | ⟨k', hk', hlacks, hfault⟩
    · rw [hall k hk] at hno; cases hno
    · exact ⟨_, k', (readsElement_iff s i _ k').2 ⟨rfl, hk'⟩, (holdsNoValue_iff s _ k').2 hlacks,
        (exec_eq_reading i s).trans hfault⟩
  · intro hall
    refine ⟨_, (exec_eq_reading i s).trans (reading_next _ fun k hk => ?_)⟩
    rw [← Bool.not_eq_true, ← holdsNoValue_iff]
    exact hall _ k ((readsElement_iff s i _ k).2 ⟨rfl, hk⟩)

/-! ## What the remaining operations can do -/

/-- What FEC_ENCODE does (40_block_fec.md R150): one of these two, by the code. -/
theorem fecEncode_cases (c : Code) (s : State) :
    (c = .rs2412 ∧ fecEncode c s = s.recordError .illegal (encode (.fecEncode c))) ∨
    (c ≠ .rs2412 ∧ fecEncode c s = (s.setFec (encodeUnit s.cfg c s.fec)).markFec) := by
  by_cases h : c = .rs2412
  · exact .inl ⟨h, if_pos (by simp [h])⟩
  · exact .inr ⟨h, if_neg (by simpa using h)⟩

/-- What PUSH_SAMPLE does (43_sync.md R246): it clears the squelch count, returns to search, or counts. -/
theorem pushSample_cases (v : BitVec 16) (s : State) :
    ((s.sync.state = .look ∨ v ≠ 0) ∧ pushSample v s = s.setSync { s.sync with sqCnt := 0 }) ∨
    (s.sync.state ≠ .look ∧ v = 0 ∧
      ((squelchFires s.ctl.sqThresh (satInc s.sync.sqCnt) = true ∧
          pushSample v s = (s.setSync s.sync.toLook.clearCall).signal .squelch) ∨
        (squelchFires s.ctl.sqThresh (satInc s.sync.sqCnt) = false ∧
          pushSample v s = s.setSync { s.sync with sqCnt := satInc s.sync.sqCnt }))) := by
  by_cases hclear : s.sync.state = .look ∨ v ≠ 0
  · exact .inl ⟨hclear, if_pos (by simpa using hclear)⟩
  · obtain ⟨hlook, hv⟩ : s.sync.state ≠ .look ∧ v = 0 := by simpa using hclear
    have hcount : ¬ (s.sync.state == .look || v != 0) = true := by simpa using hclear
    refine .inr ⟨hlook, hv, ?_⟩
    cases hfires : squelchFires s.ctl.sqThresh (satInc s.sync.sqCnt) with
    | true => exact .inl ⟨rfl, (if_neg hcount).trans (if_pos hfires)⟩
    | false => exact .inr ⟨rfl, (if_neg hcount).trans (if_neg (by simp [hfires]))⟩

/-- What a write to CAP_PTR does (20_memory.md R89): one of these two, by the value. -/
theorem writeCapPtr_cases (s : State) (v : Word) :
    (v.toNat ≤ 128 ∧ writeCapPtr s v = s.setDil { s.dil with capPtr := v.toNat }) ∨
    (128 < v.toNat ∧ writeCapPtr s v = s.recordError .range v) := by
  by_cases h : v.toNat ≤ 128
  · exact .inl ⟨h, if_pos h⟩
  · exact .inr ⟨by omega, if_neg h⟩

/-! ## What every step keeps

A predicate that the named operations and the effects of commands keep is kept by every step. -/

/-- The predicate is kept by everything a step is made of. -/
structure StepClosed (P : State → Prop) : Prop where
  setPending : ∀ {s} q, P s → P (s.setPending q)
  setRstN : ∀ {s} b, P s → P (s.setRstN b)
  setRdata : ∀ {s} x, P s → P (s.setRdata x)
  setDraws : ∀ {s} n, P s → P (s.setDraws n)
  recordError : ∀ {s} e v, P s → P (s.recordError e v)
  writeReg : ∀ {s} v r, P s → P (writeReg s v r)
  releaseReset : ∀ {s}, P s → P (releaseReset s)
  effect : ∀ {s} i, P s → P (effect i s)

namespace StepClosed

variable {P : State → Prop} {s t : State}

theorem issue (hP : StepClosed P) {v : Word} (hs : P s) (h : issue v s = .next t) : P t := by
  rcases issue_cases v s with ⟨i, -, hi⟩ | ⟨-, -, hi⟩ <;> rw [hi] at h
  · exact effect_of_exec_eq_next h ▸ hP.effect i hs
  · cases h; exact hP.recordError _ _ hs

theorem busRead (hP : StepClosed P) (a : Offset) (width : AccessWidth) (hs : P s) : P (busRead s a width) := by
  rcases busRead_cases s a width with ⟨r, x, n, -, h, -⟩ | ⟨-, h⟩ <;> rw [h]
  · exact hP.setDraws n (hP.setRdata x hs)
  · exact hP.setRdata 0 (hP.recordError _ _ hs)

theorem busWrite (hP : StepClosed P) {a : Offset} {width : AccessWidth} {v : Word} (hs : P s)
    (h : busWrite s a width v = .next t) : P t := by
  rcases busWrite_cases s a width v with ⟨-, hw⟩ | ⟨r, -, -, -, hw⟩ | ⟨-, hw⟩ <;> rw [hw] at h
  · exact hP.issue hs h
  · cases h; exact hP.writeReg v r hs
  · cases h; exact hP.recordError _ _ hs

theorem hostInput (hP : StepClosed P) {x : HostInput} (hs : P s) (h : hostInput x s = .next t) : P t := by
  cases hr : s.rstN <;> cases x <;> simp only [Machine.hostInput, hr, if_true, if_false, Bool.false_eq_true] at h
  case true.write => exact hP.busWrite hs h
  all_goals cases h
  case true.read => exact hP.busRead _ _ hs
  case false.read => exact hP.setRdata 0 hs
  case false.resetHigh => exact hP.releaseReset hs
  case false.write | true.resetHigh => exact hs
  case false.resetLow | true.resetLow => exact hP.setRstN false hs

theorem step (hP : StepClosed P) (hs : P s) (h : step s = .next t) : P t := by
  unfold Machine.step stepInput at h
  split at h
  · cases h; exact hs
  · exact hP.hostInput (hP.setPending _ hs) h

end StepClosed

/-! ## The configuration -/

theorem frameDibit_cfg (d : Dibit) (v : Word) (s : State) : (frameDibit d v s).cfg = s.cfg := by
  rcases frameDibit_cases d v s with ⟨h, -⟩ | ⟨-, ⟨h, -⟩ | ⟨h, -⟩ | ⟨h, -⟩⟩ <;> rw [h] <;> rfl

theorem noMatch_cfg (s : State) : (noMatch s).cfg = s.cfg := by
  rcases noMatch_cases s with ⟨h, -⟩ | ⟨h, -⟩ <;> rw [h] <;> rfl

theorem lookSymbol_cfg (warm : Bool) (s : State) : (lookSymbol warm s).cfg = s.cfg := by
  rcases lookSymbol_cases warm s with ⟨u, -, h⟩ | ⟨u, idx, e, m, -, -, -, h⟩ <;> rw [h]
  · exact noMatch_cfg _
  · rfl

theorem pushSymbol_cfg (d : Dibit) (s : State) : (pushSymbol d s).cfg = s.cfg := by
  rw [pushSymbol_eq]
  cases s.sync.state with
  | look => exact lookSymbol_cfg _ _
  | found | locked => exact frameDibit_cfg _ _ _

theorem pushSample_cfg (v : BitVec 16) (s : State) : (pushSample v s).cfg = s.cfg := by
  rcases pushSample_cases v s with ⟨-, h⟩ | ⟨-, -, ⟨-, h⟩ | ⟨-, h⟩⟩ <;> rw [h] <;> rfl

theorem effect_cfg (i : Instr) (s : State) : (effect i s).cfg = s.cfg := by
  cases i with
  | nop | softReset | convStart | resync | syncReset => rfl
  | fecDecode c =>
    obtain ⟨u, -, ⟨b, h⟩ | h⟩ := fecDecode_frame c s <;> simp [effect, h]
  | fecEncode c => rcases fecEncode_cases c s with ⟨-, h⟩ | ⟨-, h⟩ <;> simp [effect, h]
  | convStep s0 s1 => rcases convStep_cases s0 s1 s with ⟨-, h⟩ | ⟨-, h⟩ <;> simp [effect, h]
  | convChainback n => rcases convChainback_cases n s with ⟨-, h⟩ | ⟨-, h⟩ <;> simp [effect, h]
  | convEncode n => rcases convEncode_cases n s with ⟨-, h⟩ | ⟨-, h⟩ <;> simp [effect, h]
  | trellis12 => rcases trellis12_cases s with ⟨-, h⟩ | ⟨k, -, -, h⟩ <;> simp [effect, h]
  | pushSymbol d => exact pushSymbol_cfg d s
  | pushSample v => exact pushSample_cfg v s
  | deint slot => rcases deint_cases slot s with ⟨-, h⟩ | ⟨-, h⟩ <;> simp [effect, h]
  | pack off cnt shr => rcases pack_cases off cnt shr s with ⟨-, h⟩ | ⟨-, h⟩ <;> simp [effect, h]

theorem writeReg_cfg (s : State) (v : Word) (r : Reg) : (writeReg s v r).cfg = s.cfg := by
  cases r
  case capPtr => rcases writeCapPtr_cases s v with ⟨-, h⟩ | ⟨-, h⟩ <;> simp [writeReg, h]
  all_goals rfl

theorem stepClosed_cfg (cfg : Cfg) : StepClosed (fun s => s.cfg = cfg) where
  setPending _ h := h
  setRstN _ h := h
  setRdata _ h := h
  setDraws _ h := h
  recordError _ _ h := h
  writeReg v r h := (writeReg_cfg _ v r).trans h
  releaseReset h := h
  effect i h := (effect_cfg i _).trans h

/-- Settles O54: every operation a step is made of leaves the configuration. -/
theorem configurationNeverChanges : Obligations.ConfigurationNeverChanges :=
  fun s _ h => (stepClosed_cfg s.cfg).step rfl h

/-! ## The sync unit's part of the invariant -/

/-- What State.Inv says of the sync unit, for a window of nW dibits. -/
structure SyncUnit.Inv (nW : Nat) (u : SyncUnit) : Prop where
  windowLength : u.window.length = nW
  vcntLe : u.vcnt ≤ nW
  warmIsVcnt : u.warmT = min u.vcnt 18
  searchLt : u.searchCnt < 1800
  searchLook : u.state ≠ .look → u.searchCnt = 0
  frameWarm : u.state ≠ .look → u.warmT = 18
  nxdnClear : u.nxdnValid = false → u.nxdnCnt = 0
  lookClear : u.state = .look → u.pol = false ∧ u.stEn = false ∧ u.frameCnt = 0 ∧ u.sqCnt = 0
  frameInfo : u.state ≠ .look → u.info.valid = true ∧ u.pol = u.info.epol
  infoZero : u.info.valid = false → u.info = SyncInfo.zero

theorem State.Inv.syncInv {s : State} (h : s.Inv) : s.sync.Inv s.cfg.nW :=
  { h with }

theorem inv_setSync {s : State} {u : SyncUnit} (h : s.Inv) (hu : u.Inv s.cfg.nW) : (s.setSync u).Inv :=
  { h with
    windowLength := hu.windowLength, vcntLe := hu.vcntLe, warmIsVcnt := hu.warmIsVcnt, searchLt := hu.searchLt
    searchLook := hu.searchLook, frameWarm := hu.frameWarm, nxdnClear := hu.nxdnClear, lookClear := hu.lookClear
    frameInfo := hu.frameInfo, infoZero := hu.infoZero }

namespace SyncUnit.Inv

variable {nW : Nat} {u : SyncUnit}

/-- The sync unit after power-on, SYNC_RESET and SOFT_RESET (43_sync.md R250). -/
theorem reset (cfg : Cfg) : (SyncUnit.reset cfg).Inv cfg.nW where
  windowLength := List.length_replicate
  vcntLe := Nat.zero_le _
  warmIsVcnt := rfl
  searchLt := Nat.zero_lt_succ _
  searchLook _ := rfl
  frameWarm h := absurd rfl h
  nxdnClear _ := rfl
  lookClear _ := ⟨rfl, rfl, rfl, rfl⟩
  frameInfo h := absurd rfl h
  infoZero _ := rfl

/-- WARM_T advances with VCNT up to 18, which N_W reaches (00_scope.md R10). -/
theorem symbolUnit (h : u.Inv nW) (hnW : 18 ≤ nW) (d : Dibit) : (symbolUnit nW u d).Inv nW :=
  have hvcnt := h.vcntLe
  have hwarm := h.warmIsVcnt
  { h with
    windowLength := by
      show ((d :: u.window).take nW).length = nW
      rw [List.length_take, List.length_cons, h.windowLength]; omega
    vcntLe := Nat.min_le_right _ _
    warmIsVcnt := by
      show (if decide (u.warmT < 18) = true then u.warmT + 1 else u.warmT) = min (min (u.vcnt + 1) nW) 18
      by_cases hlt : u.warmT < 18
      · rw [if_pos (decide_eq_true hlt)]; omega
      · rw [if_neg (by simpa using hlt)]; omega
    frameWarm := fun hs => by
      show (if decide (u.warmT < 18) = true then u.warmT + 1 else u.warmT) = 18
      rw [h.frameWarm hs]; rfl
    nxdnClear := fun hv => by
      show (if u.nxdnValid = true then satInc u.nxdnCnt else u.nxdnCnt) = 0
      rw [if_neg (by rw [show u.nxdnValid = false from hv]; decide)]
      exact h.nxdnClear hv }

theorem resetNxdn (h : u.Inv nW) : u.resetNxdn.Inv nW :=
  { h with nxdnClear := fun _ => rfl }

/-- What a scan leaves of the unit (43_sync.md R237). -/
theorem of_eq_or_eq_resetNxdn {v : SyncUnit} (h : u.Inv nW) (hv : v = u ∨ v = u.resetNxdn) : v.Inv nW := by
  rcases hv with rfl | rfl
  · exact h
  · exact h.resetNxdn

theorem clearCall (h : u.Inv nW) (hs : u.state = .look) : u.clearCall.Inv nW :=
  { h with
    nxdnClear := fun _ => rfl
    lookClear := fun _ => ⟨rfl, rfl, rfl, rfl⟩
    frameInfo := fun hn => absurd hs hn
    infoZero := fun _ => rfl }

/-- Outside a frame the count of non-matches may take any value below NOSYNC_LIMIT (10_state.md R68). -/
theorem setSearchCnt {n : Nat} (h : u.Inv nW) (hs : u.state = .look) (hn : n < 1800) :
    Inv nW { u with searchCnt := n } :=
  { h with searchLt := hn, searchLook := fun hf => absurd hs hf }

/-- A declaration after the warm-up starts a frame (43_sync.md R238). -/
theorem declare (h : u.Inv nW) (hwarm : u.warmT = 18) (idx : Nat) (e : SyncEntry) (m : Nat) :
    (u.declare idx e m).Inv nW :=
  { h with
    searchLt := Nat.zero_lt_succ _
    searchLook := fun _ => rfl
    frameWarm := fun _ => hwarm
    nxdnClear := fun hv => by
      obtain ⟨hlong, hvalid⟩ := Bool.or_eq_false_iff.1 hv
      exact (if_neg (by rw [hlong]; decide)).trans (h.nxdnClear hvalid)
    lookClear := fun hs => by cases hs
    frameInfo := fun _ => ⟨rfl, rfl⟩
    infoZero := fun hv => by cases hv }

/-- FOUND becomes LOCKED (43_sync.md R236). -/
theorem lock (h : u.Inv nW) (hs : u.state ≠ .look) : Inv nW { u with state := .locked } :=
  { h with
    searchLook := fun _ => h.searchLook hs
    frameWarm := fun _ => h.frameWarm hs
    lookClear := fun hl => by cases hl
    frameInfo := fun _ => h.frameInfo hs }

/-- Within a frame FRAME_CNT and SQ_CNT may take any value. -/
theorem setFrameCnt (h : u.Inv nW) (hs : u.state ≠ .look) (x : Word) : Inv nW { u with frameCnt := x } :=
  { h with lookClear := fun hl => absurd hl hs }

theorem setSqCnt (h : u.Inv nW) (x : Word) (hx : u.state = .look → x = 0) : Inv nW { u with sqCnt := x } :=
  { h with
    lookClear := fun hl =>
      have ⟨hpol, hstEn, hframe, _⟩ := h.lookClear hl
      ⟨hpol, hstEn, hframe, hx hl⟩ }

/-- The return to search ends the frame's polarity, status exclusion and counts (43_sync.md R246, R248). -/
theorem resync (h : u.Inv nW) (abort : Bool) : (u.resync abort).Inv nW := by
  have hkept : (u.resync false).Inv nW :=
    { h with
      searchLt := Nat.zero_lt_succ _
      searchLook := fun _ => rfl
      frameWarm := fun hf => absurd rfl hf
      lookClear := fun _ => ⟨rfl, rfl, rfl, rfl⟩
      frameInfo := fun hf => absurd rfl hf }
  cases abort with
  | false => exact hkept
  | true => exact hkept.clearCall rfl

theorem toLook_clearCall (h : u.Inv nW) : u.toLook.clearCall.Inv nW := h.resync true

end SyncUnit.Inv

/-! ## New contents of the other units -/

theorem inv_setCtl {s : State} {c : Control} (h : s.Inv) (hsticky : c.sticky &&& ~~~stickyMask = 0)
    (hirq : c.irqEn &&& ~~~stickyMask = 0) (herr : c.errCode.toNat ≤ 5) : (s.setCtl c).Inv :=
  { h with stickyBits := hsticky, irqEnBits := hirq, errCodeLe := herr }

theorem inv_setFec {s : State} {u : FecUnit} (h : s.Inv) (hcode : u.fecRes.code.toNat ≤ 11)
    (hnflip : u.fecRes.nflip.toNat ≤ 3) : (s.setFec u).Inv :=
  { h with fecCodeLe := hcode, nflipLe := hnflip }

/-- A Viterbi unit with the same decision memory and no more decisions taken. -/
theorem inv_setVit {s : State} {u : VitUnit} (h : s.Inv) (hdec : u.dec = s.vit.dec) (hdp : u.dp ≤ s.vit.dp) :
    (s.setVit u).Inv :=
  { h with
    dpLe := hdp.trans h.dpLe
    decHigh := fun j => by show (u.dec.getD j 0).toNat < _; rw [hdec]; exact h.decHigh j
    decWritten := fun j hj => h.decWritten j (Nat.lt_of_lt_of_le hj hdp) }

theorem inv_setTrl {s : State} {u : TrlUnit} (h : s.Inv) (htdib : u.tdib = s.trl.tdib) (htout : u.tout = s.trl.tout)
    (hsteps : u.trlRes.steps.toNat ≤ 49) : (s.setTrl u).Inv :=
  { h with
    tdibTail := fun j hj => by show u.tdib.getD j 0 = 0; rw [htdib]; exact h.tdibTail j hj
    toutTail := fun j hj => by show u.tout.getD j 0 = 0; rw [htout]; exact h.toutTail j hj
    stepsLe := hsteps }

theorem inv_setDil {s : State} {u : DilUnit} (h : s.Inv) (hcap : u.capPtr ≤ 128) : (s.setDil u).Inv :=
  { h with capPtrLe := hcap }

/-- A record of unwritten elements that is the old one in DEC, TDIB and TOUT. -/
theorem inv_setUnwritten_of_eq {s : State} {b : Buffers} (h : s.Inv) (hdec : b.dec = s.unwritten.dec)
    (htdib : b.tdib = s.unwritten.tdib) (htout : b.tout = s.unwritten.tout) : (s.setUnwritten b).Inv :=
  inv_setUnwritten h b (hdec ▸ h.decWritten) (hdec ▸ h.decFree) (htdib ▸ h.tdibFree) (htout ▸ h.toutFree)

theorem inv_markFec {s : State} (h : s.Inv) : s.markFec.Inv := inv_setUnwritten_of_eq h rfl rfl rfl

theorem inv_setPending {s : State} (h : s.Inv) (q : List HostInput) : (s.setPending q).Inv := { h with }

theorem inv_setRstN {s : State} (h : s.Inv) (b : Bool) : (s.setRstN b).Inv := { h with }

theorem inv_setRdata {s : State} (h : s.Inv) (x : Word) : (s.setRdata x).Inv := { h with }

theorem inv_setDraws {s : State} (h : s.Inv) (n : Nat) : (s.setDraws n).Inv := { h with }

/-! ## The power-on state -/

theorem toNat_getD_map_setWidth_lt (v : Vector (BitVec 16) 300) (j : Nat) :
    ((v.map (fun d => d.setWidth 64)).getD j (0 : BitVec 64)).toNat < 2 ^ 16 := by
  by_cases hj : j < 300
  · have hget : (v.map (fun d => d.setWidth 64)).getD j (0 : BitVec 64) = v[j].setWidth 64 := by simp [Vector.getD, hj]
    rw [hget, BitVec.toNat_setWidth_of_le (by decide)]
    exact BitVec.isLt _
  · simp [Vector.getD, hj]

theorem getD_ofFn_zero {w n m : Nat} (f : Fin n → BitVec w) (hf : ∀ i : Fin n, m ≤ i.val → f i = 0) {j : Nat}
    (hj : m ≤ j) : (Vector.ofFn f).getD j 0 = 0 := by
  rw [getD_ofFn]
  split
  · exact hf _ hj
  · rfl

theorem getD_of_ge {α : Type} {n : Nat} (v : Vector α n) {j : Nat} (d : α) (hj : n ≤ j) : v.getD j d = d := by
  simp [Vector.getD, Nat.not_lt.2 hj]

theorem allUnwritten_dec_lt (j : Nat) : (Buffers.allUnwritten.dec.getD j 0).toNat < 2 ^ 16 := by
  by_cases hj : j < 300 <;> simp [Buffers.allUnwritten, Vector.getD, hj]

/-- The power-on state of a valid configuration meets the invariant (70_reset_and_hazards.md R351). -/
theorem inv_powerOn {cfg : Cfg} (hcfg : cfg.wf = true) (b : PowerOnBuffers) : (State.powerOn cfg b).Inv :=
  have hsync := SyncUnit.Inv.reset cfg
  { hsync with
    cfgValid := hcfg
    stickyBits := BitVec.zero_and
    irqEnBits := BitVec.zero_and
    errCodeLe := Nat.zero_le _
    fecCodeLe := Nat.zero_le _
    nflipLe := Nat.zero_le _
    dpLe := Nat.zero_le _
    decHigh := toNat_getD_map_setWidth_lt b.dec
    tdibTail := fun _ => getD_ofFn_zero _ fun _ hi => getD_of_ge b.tdib 0 hi
    toutTail := fun _ => getD_ofFn_zero _ fun _ hi => getD_of_ge b.tout 0 hi
    stepsLe := Nat.zero_le _
    capPtrLe := Nat.zero_le _
    decWritten := fun _ hj => absurd hj (Nat.not_lt_zero _)
    decFree := allUnwritten_dec_lt
    tdibFree := fun _ => getD_ofFn_zero _ fun _ hi => if_neg (Nat.not_lt.2 hi)
    toutFree := fun _ => getD_ofFn_zero _ fun _ hi => if_neg (Nat.not_lt.2 hi) }

theorem inv_releaseReset {s : State} (h : s.Inv) : (releaseReset s).Inv :=
  { inv_powerOn h.cfgValid (Config.powerOn s.draws) with }

/-! ## The block FEC unit -/

/-- What a valid configuration gives of its depths and window (40_block_fec.md R144, 00_scope.md R10). -/
theorem Cfg.wf_bounds {cfg : Cfg} (h : cfg.wf = true) :
    (∀ c : Code, c.hasTable = true → 1 ≤ cfg.depth c ∧ cfg.depth c ≤ 3) ∧ 24 ≤ cfg.nW ∧ cfg.nW ≤ 64 := by
  simp only [Cfg.wf, Bool.and_eq_true] at h
  obtain ⟨⟨⟨⟨⟨⟨⟨⟨⟨-, hdepth⟩, -⟩, -⟩, -⟩, hnW⟩, -⟩, -⟩, -⟩, -⟩ := h
  refine ⟨fun c hc => ?_, of_decide_eq_true hnW⟩
  have hall : c ∈ Code.all.filter Code.hasTable := List.mem_filter.2 ⟨by cases c <;> decide, hc⟩
  have hok := List.all_eq_true.1 hdepth c hall
  exact of_decide_eq_true (Bool.and_eq_true_iff.1 hok).1

/-- The word with the bits bs set has at most as many bits as bs has indices. -/
theorem popcount_errorWord_le (bs : List Nat) : popcount (errorWord bs) ≤ bs.length := by
  unfold popcount
  rw [onesBelow_eq]
  refine (List.Nodup.subperm (List.nodup_range.filter _) fun i hi => ?_).length_le
  have hbit : (errorWord bs).getLsbD i = true := (List.mem_filter.1 hi).2
  rw [getLsbD_errorWord, Bool.and_eq_true] at hbit
  exact of_decide_eq_true hbit.2

/-- A correction flips at most t_c bits (40_block_fec.md R143, R145). -/
theorem popcount_correction_le (cfg : Cfg) (c : Code) (syn : BitVec 64) :
    popcount ((correction cfg c syn).getD 0) ≤ cfg.depth c := by
  have hzero : popcount (0 : Vec) ≤ cfg.depth c := (popcount_errorWord_le []).trans (Nat.zero_le _)
  unfold correction
  split
  · exact hzero
  · cases hentry : syndromeTable cfg c syn with
    | none => exact hzero
    | some e =>
      obtain ⟨-, bs, -, -, hdepth, rfl, -⟩ := syndromeTable_spec hentry
      exact (popcount_errorWord_le bs).trans hdepth

theorem Code.num_le (c : Code) : c.num.toNat ≤ 11 := by cases c <;> decide

theorem tableDecode_nflip_le {cfg : Cfg} (hcfg : cfg.wf = true) {c : Code} (hc : c.hasTable = true) (u : FecUnit) :
    (tableDecode cfg c u).fecRes.nflip.toNat ≤ 3 := by
  have hdepth := ((Cfg.wf_bounds hcfg).1 c hc).2
  have hpop := popcount_correction_le cfg c (cfg.syndrome c (codeword c u.opd))
  exact (Nat.mod_le _ _).trans (hpop.trans hdepth)

theorem inv_fecDecode {s : State} (h : s.Inv) (c : Code) : (fecDecode c s).Inv := by
  unfold fecDecode
  split
  · rename_i hc
    exact inv_signalIf (inv_markFec (inv_setFec h (Code.num_le c) (tableDecode_nflip_le h.cfgValid hc s.fec))) _ _
  · exact inv_setDraws (inv_markFec (inv_setFec h (Code.num_le c) (Nat.zero_le _))) _

theorem inv_fecEncode {s : State} (h : s.Inv) (c : Code) : (fecEncode c s).Inv := by
  rcases fecEncode_cases c s with ⟨-, he⟩ | ⟨-, he⟩ <;> rw [he]
  · exact inv_recordError h _ _
  · exact inv_markFec (inv_setFec h (Code.num_le c) (Nat.zero_le _))

/-! ## The Viterbi and the trellis unit -/

/-- Writing one element keeps a bound that all elements and the new one meet. -/
theorem toNat_getD_setIfInBounds_lt {w n b : Nat} {v : Vector (BitVec w) n} {x : BitVec w}
    (hv : ∀ j, (v.getD j 0).toNat < b) (hx : x.toNat < b) (i j : Nat) :
    ((v.setIfInBounds i x).getD j 0).toNat < b := by
  by_cases hij : i = j
  · subst hij
    by_cases hi : i < n
    · rw [getD_setIfInBounds_self v i x 0 hi]; exact hx
    · rw [getD_of_ge _ _ (Nat.le_of_not_lt hi), ← getD_of_ge v 0 (Nat.le_of_not_lt hi)]; exact hv i
  · rw [getD_setIfInBounds_ne v i j x 0 hij]; exact hv j

/-- The step writes the decision word at DP, so the words below the new DP hold values (41_viterbi.md R182, R186). -/
theorem inv_convStep {s : State} (h : s.Inv) (s0 s1 : BitVec 8) : (convStep s0 s1 s).Inv := by
  rcases convStep_cases s0 s1 s with ⟨-, he⟩ | ⟨hdp, he⟩ <;> rw [he]
  · exact inv_recordError h _ _
  · refine inv_setVit_setUnwritten h _ _ hdp (toNat_getD_setIfInBounds_lt h.decHigh (decisionWord_lt _ _ _ _) _)
      (fun j hj => ?_) (toNat_getD_setIfInBounds_lt h.decFree (by decide) _) h.tdibFree h.toutFree
    rcases Nat.lt_succ_iff_lt_or_eq.1 hj with hlt | rfl
    · exact (getD_setIfInBounds_ne _ _ _ _ _ (Nat.ne_of_gt hlt)).trans (h.decWritten j hlt)
    · exact getD_setIfInBounds_self _ _ _ _ hdp

theorem inv_convChainback {s : State} (h : s.Inv) (n : BitVec 9) : (convChainback n s).Inv := by
  rcases convChainback_cases n s with ⟨-, he⟩ | ⟨-, he⟩ <;> rw [he]
  · exact inv_recordError h _ _
  · exact inv_setUnwritten_of_eq (inv_setVit h rfl (Nat.sub_le _ _)) rfl rfl rfl

theorem inv_convEncode {s : State} (h : s.Inv) (n : BitVec 9) : (convEncode n s).Inv := by
  rcases convEncode_cases n s with ⟨-, he⟩ | ⟨-, he⟩ <;> rw [he]
  · exact inv_recordError h _ _
  · exact inv_setUnwritten_of_eq (inv_setVit h rfl (Nat.le_refl _)) rfl rfl rfl

theorem getD_clearFirst_tail {w n m : Nat} {v : Vector (BitVec w) n} (hv : ∀ j, m ≤ j → v.getD j 0 = 0) (k : Nat)
    {j : Nat}
    (hj : m ≤ j) : (clearFirst v k).getD j 0 = 0 := by
  rw [getD_clearFirst]
  split
  · rfl
  · exact hv j hj

/-- TRELLIS12 writes TDIB[0..48] and TOUT[0..11] only, and counts at most 49 steps (42_trellis.md R211, R212). -/
theorem inv_trellis12 {s : State} (h : s.Inv) : (trellis12 s).Inv := by
  have htdib : ∀ j, 49 ≤ j → (trellisLoop s.cfg s.trl.tin 49 0 0 s.trl.tdib).1.getD j 0 = 0 := fun j hj =>
    (trellisLoop_outside _ _ _ _ _ _ j (.inr (by omega))).trans (h.tdibTail j hj)
  rcases trellis12_cases s with ⟨-, he⟩ | ⟨k, -, hk, he⟩ <;> rw [he]
  · have htout : ∀ tdib, ∀ j, 12 ≤ j → (trellisBytes tdib).getD j 0 = 0 := fun _ _ =>
      getD_ofFn_zero _ fun _ hi => if_neg (Nat.not_lt.2 hi)
    have hfree : ∀ j, 12 ≤ j → (Vector.replicate 16 (0 : Byte)).getD j 0 = 0 := fun j _ => by
      by_cases hj : j < 16 <;> simp [Vector.getD, hj]
    exact inv_setTrl_setUnwritten h _ _ htdib (htout _) (Nat.le_refl 49) rfl
      (fun _ => getD_clearFirst_tail h.tdibFree 49) hfree
  · have hsteps : (BitVec.ofNat 6 k).toNat ≤ 49 := (Nat.mod_le _ _).trans hk.le
    refine inv_signal ?_ _
    exact inv_setTrl_setUnwritten h _ _ htdib h.toutTail hsteps rfl
      (fun _ => getD_clearFirst_tail h.tdibFree k) h.toutFree

/-! ## The sync unit and the frame path -/

theorem inv_noMatch {s : State} (h : s.Inv) (hs : s.sync.state = .look) : (noMatch s).Inv := by
  rcases noMatch_cases s with ⟨he, -⟩ | ⟨he, hne⟩ <;> rw [he]
  · exact inv_signal (inv_setSync h ((h.syncInv.clearCall hs).setSearchCnt hs (by decide))) _
  · have hlt := h.searchLt
    exact inv_setSync h (h.syncInv.setSearchCnt hs (by omega))

theorem inv_declareSync {s : State} (h : s.Inv) (hwarm : s.sync.warmT = 18) (idx : Nat) (e : SyncEntry) (m : Nat) :
    (declareSync s idx e m).Inv :=
  inv_signal (inv_setDil (inv_setSync h (h.syncInv.declare hwarm idx e m)) (Nat.zero_le _)) _

theorem inv_lookSymbol {s : State} (h : s.Inv) (hs : s.sync.state = .look) {warm : Bool}
    (hwarm : warm = false → s.sync.warmT = 18) : (lookSymbol warm s).Inv := by
  rcases lookSymbol_cases warm s with ⟨u, hu, he⟩ | ⟨u, idx, e, m, hu, hw, -, he⟩ <;> rw [he] <;>
    have hinv := inv_setSync h (h.syncInv.of_eq_or_eq_resetNxdn hu)
  · refine inv_noMatch hinv ?_
    rcases hu with rfl | rfl <;> exact hs
  · refine inv_declareSync hinv ?_ idx e m
    rcases hu with rfl | rfl <;> exact hwarm hw

theorem inv_frameDibit {s : State} (h : s.Inv) (hs : s.sync.state ≠ .look) (d : Dibit) (v : Word) :
    (frameDibit d v s).Inv := by
  have hinv := inv_setSync h (h.syncInv.setFrameCnt hs (s.sync.frameCnt + 1))
  rcases frameDibit_cases d v s with ⟨he, -⟩ | ⟨-, ⟨he, -, hcap⟩ | ⟨he, -⟩ | ⟨he, -⟩⟩ <;> rw [he]
  · exact inv_signal (inv_setDil (u := s.dil.divert _) hinv h.capPtrLe) _
  · exact inv_setUnwritten_of_eq (inv_setDil hinv hcap) rfl rfl rfl
  · exact inv_recordError hinv _ _
  · exact hinv

/-- After a symbol that is no warm-up symbol WARM_T stands at 18 (43_sync.md R235). -/
theorem symbolUnit_warmT_of_not_warm {nW : Nat} {u : SyncUnit} (h : u.Inv nW) (hw : u.warm = false) (d : Dibit) :
    (symbolUnit nW u d).warmT = 18 := by
  have hvcnt := h.warmIsVcnt
  have hge : ¬ u.warmT < 18 := of_decide_eq_false hw
  show (if u.warm = true then u.warmT + 1 else u.warmT) = 18
  rw [hw]
  show u.warmT = 18
  omega

theorem inv_pushSymbol {s : State} (h : s.Inv) (d : Dibit) : (pushSymbol d s).Inv := by
  have hnW := (Cfg.wf_bounds h.cfgValid).2.1
  have hunit := h.syncInv.symbolUnit (by omega) d
  rw [pushSymbol_eq]
  cases hs : s.sync.state with
  | look => exact inv_lookSymbol (inv_setSync h hunit) hs fun hw => symbolUnit_warmT_of_not_warm h.syncInv hw d
  | found =>
    have hfound : (symbolUnit s.cfg.nW s.sync d).state ≠ .look := hs ▸ SyncState.noConfusion
    exact inv_frameDibit (inv_setSync h (hunit.lock hfound)) SyncState.noConfusion _ _
  | locked =>
    have hlocked : (symbolUnit s.cfg.nW s.sync d).state ≠ .look := hs ▸ SyncState.noConfusion
    exact inv_frameDibit (inv_setSync h hunit) hlocked _ _

theorem inv_pushSample {s : State} (h : s.Inv) (v : BitVec 16) : (pushSample v s).Inv := by
  rcases pushSample_cases v s with ⟨-, he⟩ | ⟨hlook, -, ⟨-, he⟩ | ⟨-, he⟩⟩ <;> rw [he]
  · exact inv_setSync h (h.syncInv.setSqCnt 0 fun _ => rfl)
  · exact inv_signal (inv_setSync h h.syncInv.toLook_clearCall) _
  · exact inv_setSync h (h.syncInv.setSqCnt _ fun hl => absurd hl hlook)

theorem inv_syncReset {s : State} (h : s.Inv) : (syncReset s).Inv :=
  inv_setDil (inv_setSync h (SyncUnit.Inv.reset s.cfg)) (Nat.zero_le _)

theorem inv_deint {s : State} (h : s.Inv) (slot : BitVec 3) : (deint slot s).Inv := by
  rcases deint_cases slot s with ⟨-, he⟩ | ⟨-, he⟩ <;> rw [he]
  · exact inv_recordError h _ _
  · exact inv_setUnwritten_of_eq (inv_setTrl h rfl rfl h.stepsLe) rfl rfl rfl

theorem inv_pack {s : State} (h : s.Inv) (off cnt : BitVec 7) (shr : BitVec 4) : (pack off cnt shr s).Inv := by
  rcases pack_cases off cnt shr s with ⟨-, he⟩ | ⟨-, he⟩ <;> rw [he]
  · exact inv_recordError h _ _
  · exact inv_setUnwritten_of_eq (inv_setFec h h.fecCodeLe h.nflipLe) rfl rfl rfl

/-! ## The system commands, bus writes and the step -/

theorem inv_softReset {s : State} (h : s.Inv) : (softReset s).Inv :=
  have hctl := inv_setCtl (c := { s.ctl with sticky := 0, errCode := 0, errInfo := 0 }) h
    BitVec.zero_and h.irqEnBits (Nat.zero_le _)
  have hfec := inv_setFec (u := { s.fec with fecRes := FecRes.zero }) hctl (Nat.zero_le _) (Nat.zero_le _)
  have hvit := inv_setVit (u := { s.vit with pm := Vector.replicate 16 0, dp := 0 }) hfec rfl (Nat.zero_le _)
  have htrl := inv_setTrl (u := { s.trl with trlRes := TrlRes.zero }) hvit rfl rfl (Nat.zero_le _)
  inv_setDil (inv_setSync htrl (SyncUnit.Inv.reset s.cfg)) (Nat.zero_le _)

theorem inv_effect {s : State} (i : Instr) (h : s.Inv) : (effect i s).Inv :=
  match i with
  | .nop => h
  | .softReset => inv_softReset h
  | .fecDecode c => inv_fecDecode h c
  | .fecEncode c => inv_fecEncode h c
  | .convStart => inv_setVit h rfl (Nat.zero_le _)
  | .convStep s0 s1 => inv_convStep h s0 s1
  | .convChainback n => inv_convChainback h n
  | .convEncode n => inv_convEncode h n
  | .trellis12 => inv_trellis12 h
  | .pushSymbol d => inv_pushSymbol h d
  | .pushSample v => inv_pushSample h v
  | .resync abort => inv_setSync h (h.syncInv.resync abort)
  | .syncReset => inv_syncReset h
  | .deint slot => inv_deint h slot
  | .pack off cnt shr => inv_pack h off cnt shr

theorem inv_writeCapPtr {s : State} (h : s.Inv) (v : Word) : (writeCapPtr s v).Inv := by
  rcases writeCapPtr_cases s v with ⟨hle, he⟩ | ⟨-, he⟩ <;> rw [he]
  · exact inv_setDil h hle
  · exact inv_recordError h _ _

theorem and_stickyMask_and_not (x : Word) : x &&& stickyMask &&& ~~~stickyMask = 0 := by
  rw [BitVec.and_assoc, BitVec.and_not_self]; exact BitVec.and_zero

theorem inv_writeReg {s : State} (v : Word) (r : Reg) (h : s.Inv) : (writeReg s v r).Inv := by
  cases r
  case ctrl | sqThresh => exact inv_setCtl h h.stickyBits h.irqEnBits h.errCodeLe
  case status =>
    refine inv_setCtl h ?_ h.irqEnBits h.errCodeLe
    show s.ctl.sticky &&& ~~~v &&& ~~~stickyMask = 0
    rw [BitVec.and_assoc, BitVec.and_comm (~~~v), ← BitVec.and_assoc, h.stickyBits]
    exact BitVec.zero_and
  case irqEn => exact inv_setCtl h h.stickyBits (and_stickyMask_and_not v) h.errCodeLe
  case capPtr => exact inv_writeCapPtr h v
  case opd => exact inv_setUnwritten_of_eq (inv_setFec h h.fecCodeLe h.nflipLe) rfl rfl rfl
  case din => exact inv_setUnwritten_of_eq (inv_setDil h h.capPtrLe) rfl rfl rfl
  case tin => exact inv_setUnwritten_of_eq (inv_setTrl h rfl rfl h.stepsLe) rfl rfl rfl
  case cin => exact inv_setUnwritten_of_eq (inv_setVit h rfl (Nat.le_refl _)) rfl rfl rfl
  all_goals exact h

theorem stepClosed_inv : StepClosed State.Inv where
  setPending q h := inv_setPending h q
  setRstN b h := inv_setRstN h b
  setRdata x h := inv_setRdata h x
  setDraws n h := inv_setDraws h n
  recordError e v h := inv_recordError h e v
  writeReg := inv_writeReg
  releaseReset := inv_releaseReset
  effect := inv_effect

/-- Settles O59: every operation a step is made of keeps State.Inv. -/
theorem stepKeepsInvariant : Obligations.StepKeepsInvariant :=
  fun _ _ hs h => stepClosed_inv.step hs h

/-! ## What a read of the buffers draws -/

/-- A read of an offset of the map draws for the unwritten bits of the register there. -/
theorem drawsFor_of_regAt {s : State} (hr : s.rstN = true) {o : Nat} {r : Reg} {free : Nat → Bool}
    (hreg : regAt o = some r) (hfree : ∀ i, i < 32 → (bufferWord s.unwritten r).getLsbD i = free i)
    (ho : o < 8192 := by omega) (h4 : o % 4 = 0 := by omega) : drawsFor s o free :=
  drawsFor_unwrittenBits hr ((accessed_aligned ho h4).trans hreg) fun i hi => (hfree i hi).symm

/-- The bits of a bus word by lane: bit i is bit i mod 8 of lane i div 8 (20_memory.md R83). -/
theorem getLsbD_laneWord_div_mod (f : Nat → Byte) (j : Nat) {i : Nat} (hi : i < 32) :
    (laneWord f j).getLsbD i = (f (4 * j + i / 8)).getLsbD (i % 8) := by
  have h := getLsbD_laneWord f j (i / 8) (i % 8) (by omega) (by omega)
  rwa [Nat.div_add_mod] at h

theorem getLsbD_byteWord_div_mod {n : Nat} (v : Vector Byte n) (j : Nat) {i : Nat} (hi : i < 32) :
    (byteWord v j).getLsbD i = (v.getD (4 * j + i / 8) 0).getLsbD (i % 8) :=
  getLsbD_laneWord_div_mod _ j hi

theorem getLsbD_dibitWord_div_mod {n : Nat} (v : Vector Dibit n) (j : Nat) {i : Nat} (hi : i < 32) :
    (dibitWord v j).getLsbD i = (v.getD (4 * j + i / 8) 0).getLsbD (i % 8) := by
  have h := getLsbD_dibitWord v j (i / 8) (i % 8) (by omega) (by omega)
  rwa [Nat.div_add_mod] at h

/-- Bit i of a stream word is stream bit 7 − i mod 8 of its lane (10_state.md R49). -/
theorem getLsbD_streamWord_div_mod {w : Nat} (v : BitVec w) (j : Nat) {i : Nat} (hi : i < 32) :
    (streamWord v j).getLsbD i = v.getLsbD (32 * j + 8 * (i / 8) + (7 - i % 8)) := by
  have h := getLsbD_streamWord v j (i / 8) (7 - i % 8) (by omega) (by omega)
  rwa [show 8 * (i / 8) + (7 - (7 - i % 8)) = i by omega,
    show 8 * (4 * j + i / 8) + (7 - i % 8) = 32 * j + 8 * (i / 8) + (7 - i % 8) by omega] at h

theorem getLsbD_vecWord_of_lt {w : Nat} (v : BitVec w) (j : Nat) {i : Nat} (hi : i < 32) :
    (vecWord v j).getLsbD i = v.getLsbD (32 * j + i) := by
  rw [getLsbD_vecWord, decide_eq_true hi, Bool.true_and]

/-- A decision word is read without its bits 63:32. -/
theorem getLsbD_decWord (v : BitVec 64) {i : Nat} (hi : i < 32) : (v.setWidth 32).getLsbD i = v.getLsbD i := by
  rw [BitVec.getLsbD_setWidth, decide_eq_true hi, Bool.true_and]

/-- The single registers stand at the offsets 0 to 0x50 (20_memory.md R88). -/
theorem regAt_scalar : ∀ j, j < 21 → ∃ p ∈ scalarMap, regAt (4 * j) = some p.2 := by decide

theorem bufferWord_scalar (b : Buffers) : ∀ p ∈ scalarMap, bufferWord b p.2 = 0 := by
  simp [scalarMap, bufferWord]

/-- The registers outside the buffers of 10_state.md R61 always hold values. -/
theorem exists_regAt_bufferWord_eq_zero (b : Buffers) {o : Nat} (h4 : o % 4 = 0)
    (ho : o ≤ 0x0050 ∨ (0x0080 ≤ o ∧ o < 0x00C0) ∨ (0x0160 ≤ o ∧ o < 0x0170)) :
    ∃ r, regAt o = some r ∧ bufferWord b r = 0 := by
  rcases ho with ho | ⟨hlo, hhi⟩ | ⟨hlo, hhi⟩
  · obtain ⟨p, hp, hreg⟩ := regAt_scalar (o / 4) (by omega)
    rw [show 4 * (o / 4) = o by omega] at hreg
    exact ⟨p.2, hreg, bufferWord_scalar b p hp⟩
  · have hreg := regAt_pm ((o - 0x0080) / 4) (by omega)
    rw [show 0x0080 + 4 * ((o - 0x0080) / 4) = o by omega] at hreg
    exact ⟨_, hreg, rfl⟩
  · have hreg := regAt_win ((o - 0x0160) / 4) (by omega)
    rw [show 0x0160 + 4 * ((o - 0x0160) / 4) = o by omega] at hreg
    exact ⟨_, hreg, rfl⟩

/-- Settles O13: the free bits of a read are `unwrittenBits` of the register, taken apart word form by word form. -/
theorem unwrittenBitsReadFree : Obligations.UnwrittenBitsReadFree := by
  intro s hr
  refine ⟨fun w hw => ⟨?opd, ?res⟩, fun w hw => ?info, fun w hw => ?syn, fun w hw => ?dec,
    fun w hw => ⟨?din, ?tin, ?cenc⟩, fun w hw => ?tout, fun w hw => ⟨?tdib, ?cin, ?cout⟩, fun o h4 ho => ?scalar⟩
  case opd => exact drawsFor_of_regAt hr (regAt_opd w hw) fun _ => getLsbD_vecWord_of_lt _ _
  case res => exact drawsFor_of_regAt hr (regAt_res w hw) fun _ => getLsbD_vecWord_of_lt _ _
  case info => exact drawsFor_of_regAt hr (regAt_info w hw) fun _ => getLsbD_vecWord_of_lt _ _
  case syn => exact drawsFor_of_regAt hr (regAt_syn w hw) fun _ => getLsbD_vecWord_of_lt _ _
  case dec => exact drawsFor_of_regAt hr (regAt_dec w hw) fun _ => getLsbD_decWord _
  case din => exact drawsFor_of_regAt hr (regAt_din w hw) fun _ => getLsbD_dibitWord_div_mod _ _
  case tin => exact drawsFor_of_regAt hr (regAt_tin w hw) fun _ => getLsbD_dibitWord_div_mod _ _
  case tdib => exact drawsFor_of_regAt hr (regAt_tdib w hw) fun _ => getLsbD_dibitWord_div_mod _ _
  case tout => exact drawsFor_of_regAt hr (regAt_tout w hw) fun _ => getLsbD_byteWord_div_mod _ _
  case cin => exact drawsFor_of_regAt hr (regAt_cin w hw) fun _ => getLsbD_streamWord_div_mod _ _
  case cout => exact drawsFor_of_regAt hr (regAt_cout w hw) fun _ => getLsbD_streamWord_div_mod _ _
  case cenc => exact drawsFor_of_regAt hr (regAt_cenc w hw) fun _ => getLsbD_streamWord_div_mod _ _
  case scalar =>
    obtain ⟨r, hreg, hzero⟩ := exists_regAt_bufferWord_eq_zero s.unwritten h4 ho
    refine drawsFor_of_regAt hr hreg fun i _ => ?_
    rw [hzero]; exact BitVec.getLsbD_zero

/-! ## What the registers of several fields read as -/

/-- A read of a register that no buffer element stands in gives its word (20_memory.md R84). -/
theorem readsAs_readReg {s : State} (hr : s.rstN = true) {o : Nat} {r : Reg} (hreg : regAt o = some r)
    (hwritten : unwrittenBits s r = 0) (ho : o < 8192 := by omega) (h4 : o % 4 = 0 := by omega) :
    readsAs s o (readReg s r) :=
  (readsAs_iff hr ((accessed_aligned ho h4).trans hreg) _).2 (if_pos hwritten).symm

theorem getLsbD_append_of_le {v w : Nat} {x : BitVec v} {y : BitVec w} {i : Nat} (h : w ≤ i) :
    (x ++ y).getLsbD i = x.getLsbD (i - w) := by
  rw [BitVec.getLsbD_append, if_neg (Nat.not_lt.2 h)]

theorem getLsbD_append_ofBool {v : Nat} {x : BitVec v} {b : Bool} : (x ++ BitVec.ofBool b).getLsbD 0 = b := by
  rw [BitVec.getLsbD_append, if_pos Nat.zero_lt_one]
  cases b <;> rfl

/-! Each field of a register word is reached by skipping the fields below it. -/

theorem SyncInfo.word_fields (r : SyncInfo) :
    r.word.getLsbD 0 = r.valid ∧ r.word.extractLsb' 1 3 = r.proto ∧ r.word.getLsbD 4 = r.epol ∧
      r.word.extractLsb' 5 2 = r.stn ∧ r.word.extractLsb' 7 2 = r.var ∧ r.word.extractLsb' 9 2 = r.rate ∧
      r.word.extractLsb' 11 5 = 0 ∧ r.word.extractLsb' 16 8 = r.entry ∧ r.word.extractLsb' 24 8 = r.mism := by
  unfold SyncInfo.word
  refine ⟨?valid, ?proto, ?epol, ?stn, ?var, ?rate, ?reserved, ?entry, ?mism⟩
  all_goals
    repeat rw [getLsbD_append_of_le (by decide)]
    repeat rw [BitVec.extractLsb'_append_eq_of_le (by decide)]
  case valid | epol => exact getLsbD_append_ofBool
  case proto | stn | var | rate | reserved | entry => exact BitVec.extractLsb'_append_eq_right
  case mism => exact BitVec.extractLsb'_eq_self

theorem DilUnit.statWord_fields (u : DilUnit) :
    u.statWord.extractLsb' 0 2 = u.statDibit ∧ u.statWord.extractLsb' 2 6 = 0 ∧
      u.statWord.extractLsb' 8 24 = u.statCnt := by
  unfold DilUnit.statWord
  refine ⟨?dibit, ?reserved, ?cnt⟩
  all_goals repeat rw [BitVec.extractLsb'_append_eq_of_le (by decide)]
  case dibit | reserved => exact BitVec.extractLsb'_append_eq_right
  case cnt => exact BitVec.extractLsb'_eq_self

theorem FecRes.word_fields (r : FecRes) :
    r.word.getLsbD 0 = r.done ∧ r.word.getLsbD 1 = r.ok ∧ r.word.getLsbD 2 = r.enc ∧ r.word.getLsbD 3 = r.stub ∧
      r.word.extractLsb' 4 4 = r.code ∧ r.word.extractLsb' 8 4 = r.nflip ∧ r.word.extractLsb' 12 20 = 0 := by
  unfold FecRes.word
  refine ⟨?done, ?ok, ?enc, ?stub, ?code, ?nflip, ?reserved⟩
  all_goals
    repeat rw [getLsbD_append_of_le (by decide)]
    repeat rw [BitVec.extractLsb'_append_eq_of_le (by decide)]
  case done | ok | enc | stub => exact getLsbD_append_ofBool
  case code | nflip => exact BitVec.extractLsb'_append_eq_right
  case reserved => exact BitVec.extractLsb'_eq_self

theorem TrlRes.word_fields (r : TrlRes) :
    r.word.getLsbD 0 = r.done ∧ r.word.getLsbD 1 = r.ok ∧ r.word.extractLsb' 2 6 = 0 ∧
      r.word.extractLsb' 8 6 = r.steps ∧ r.word.extractLsb' 14 2 = 0 ∧ r.word.extractLsb' 16 6 = r.failStep ∧
      r.word.extractLsb' 22 10 = 0 := by
  unfold TrlRes.word
  refine ⟨?done, ?ok, ?reserved, ?steps, ?reserved2, ?failStep, ?reserved3⟩
  all_goals
    repeat rw [getLsbD_append_of_le (by decide)]
    repeat rw [BitVec.extractLsb'_append_eq_of_le (by decide)]
  case done | ok => exact getLsbD_append_ofBool
  case reserved | steps | reserved2 | failStep => exact BitVec.extractLsb'_append_eq_right
  case reserved3 => exact BitVec.extractLsb'_eq_self

/-- Bit s of PERM_PRESENT is set when slot s has a permutation (10_state.md R34). -/
theorem getLsbD_permPresent (cfg : Cfg) {slot : Nat} (h : slot < 8) :
    (permPresent cfg).getLsbD slot = decide (0 < (cfg.permOf slot).length) := by
  have hbits : permPresent cfg = ofBits 8 cfg.slotPresent := rfl
  rw [hbits, getLsbD_ofBits, decide_eq_true h, Bool.true_and]
  unfold Cfg.slotPresent
  cases (cfg.permOf slot).length <;> rfl

theorem param0_fields (cfg : Cfg) :
    (param0 cfg).extractLsb' 0 7 = BitVec.ofNat 7 cfg.nW ∧ (param0 cfg).getLsbD 7 = false ∧
      (param0 cfg).extractLsb' 8 8 = BitVec.ofNat 8 cfg.syncTable.length ∧ (param0 cfg).extractLsb' 24 8 = 0 ∧
      ∀ slot, slot < 8 → (param0 cfg).getLsbD (16 + slot) = decide (0 < (cfg.permOf slot).length) := by
  unfold param0
  refine ⟨?nW, ?reserved, ?entries, ?reserved2, fun slot hslot => ?present⟩
  case present =>
    rw [getLsbD_append_of_le (by omega), getLsbD_append_of_le (by omega), getLsbD_append_of_le (by omega),
      show 16 + slot - 7 - 1 - 8 = slot by omega, BitVec.getLsbD_append, if_pos hslot]
    exact getLsbD_permPresent cfg hslot
  all_goals
    repeat rw [getLsbD_append_of_le (by decide)]
    repeat rw [BitVec.extractLsb'_append_eq_of_le (by decide)]
  case reserved => exact getLsbD_append_ofBool (b := false)
  case nW | entries => exact BitVec.extractLsb'_append_eq_right
  case reserved2 => exact BitVec.extractLsb'_eq_self

theorem SyncUnit.liveBits_fields (u : SyncUnit) :
    u.liveBits.extractLsb' 0 2 = u.state.bits ∧ u.liveBits.getLsbD 2 = u.warm ∧ u.liveBits.getLsbD 3 = u.nxdnValid ∧
      u.liveBits.getLsbD 4 = u.pol ∧ u.liveBits.getLsbD 5 = u.stEn := by
  unfold SyncUnit.liveBits
  refine ⟨BitVec.extractLsb'_append_eq_right, ?warm, ?nxdnValid, ?pol, ?stEn⟩
  all_goals repeat rw [getLsbD_append_of_le (by decide)]
  case warm | nxdnValid | pol => exact getLsbD_append_ofBool
  case stEn => cases u.stEn <;> rfl

/-- The sticky flags of STATUS are its bits 20:8 less 15:14 (10_state.md R36). -/
theorem getLsbD_stickyMask :
    ∀ i, i < 32 → stickyMask.getLsbD i = decide (8 ≤ i ∧ i ≤ 20 ∧ i ≠ 14 ∧ i ≠ 15) := by decide

theorem getLsbD_statusWord (s : State) (i : Nat) : s.statusWord.getLsbD i =
    (if i < 6 then s.sync.liveBits.getLsbD i
      else (s.ctl.sticky.getLsbD i && decide (8 ≤ i ∧ i ≤ 20 ∧ i ≠ 14 ∧ i ≠ 15))) := by
  unfold State.statusWord
  rw [BitVec.getLsbD_or, BitVec.getLsbD_and, BitVec.getLsbD_setWidth]
  by_cases h32 : i < 32
  · rw [getLsbD_stickyMask i h32, decide_eq_true h32, Bool.true_and]
    split
    · rw [decide_eq_false (by omega), Bool.and_false, Bool.false_or]
    · rw [BitVec.getLsbD_of_ge s.sync.liveBits i (by omega), Bool.or_false]
  · rw [if_neg (by omega), BitVec.getLsbD_of_ge s.ctl.sticky i (by omega), decide_eq_false h32]
    rfl

theorem statusWord_fields (s : State) :
    (∀ i, 8 ≤ i → i ≤ 20 → i ≠ 14 → i ≠ 15 → s.statusWord.getLsbD i = s.ctl.sticky.getLsbD i) ∧
      (∀ i, 6 ≤ i → (i < 8 ∨ i = 14 ∨ i = 15 ∨ 20 < i) → s.statusWord.getLsbD i = false) ∧
      s.statusWord.extractLsb' 0 2 = s.sync.state.bits ∧ s.statusWord.getLsbD 2 = s.sync.warm ∧
      s.statusWord.getLsbD 3 = s.sync.nxdnValid ∧ s.statusWord.getLsbD 4 = s.sync.pol ∧
      s.statusWord.getLsbD 5 = s.sync.stEn := by
  have hlive : ∀ i, i < 6 → s.statusWord.getLsbD i = s.sync.liveBits.getLsbD i := fun i hi =>
    (getLsbD_statusWord s i).trans (if_pos hi)
  obtain ⟨hstate, hwarm, hnxdn, hpol, hstEn⟩ := s.sync.liveBits_fields
  refine ⟨fun i hlo hhi h14 h15 => ?_, fun i hlo hout => ?_, ?_, (hlive 2 (by decide)).trans hwarm,
    (hlive 3 (by decide)).trans hnxdn, (hlive 4 (by decide)).trans hpol, (hlive 5 (by decide)).trans hstEn⟩
  · rw [getLsbD_statusWord, if_neg (by omega), decide_eq_true ⟨hlo, hhi, h14, h15⟩, Bool.and_true]
  · rw [getLsbD_statusWord, if_neg (by omega), decide_eq_false (by omega), Bool.and_false]
  · rw [← hstate]
    refine BitVec.eq_of_getLsbD_eq fun i hi => ?_
    rw [BitVec.getLsbD_extractLsb', BitVec.getLsbD_extractLsb', hlive (0 + i) (by omega)]

/-- Settles O11: each of these registers reads as its word, whose fields the lemmas above give. -/
theorem fieldRegistersRead : Obligations.FieldRegistersRead := by
  intro s hr
  refine ⟨⟨s.statusWord, readsAs_readReg hr (r := .status) (by decide) rfl, ?_⟩,
    ⟨_, readsAs_readReg hr (r := .syncInfo) (by decide) rfl, s.sync.info.word_fields⟩,
    ⟨_, readsAs_readReg hr (r := .stat) (by decide) rfl, s.dil.statWord_fields⟩,
    ⟨_, readsAs_readReg hr (r := .fecRes) (by decide) rfl, s.fec.fecRes.word_fields⟩,
    ⟨_, readsAs_readReg hr (r := .trlRes) (by decide) rfl, s.trl.trlRes.word_fields⟩,
    ⟨_, readsAs_readReg hr (r := .param0) (by decide) rfl, param0_fields s.cfg⟩⟩
  obtain ⟨hsticky, hzero, hstate, hlive⟩ := statusWord_fields s
  exact ⟨hsticky, hzero, hstate.trans (by cases s.sync.state <;> rfl), hlive⟩

end Sys2Proof.Machine
end

section
/-! The bus (20_memory.md): what stands where in the register map, what a write leaves to be read, and what a good and a
bad access do. -/

namespace Sys2Proof.Machine

/-! ## The register map -/

/-- An access reaches a register exactly when it is 32 bits wide, aligned, and the map has the register there
(20_memory.md R82, R88). -/
theorem accessed_eq_some_iff {a : Offset} {width : AccessWidth} {r : Reg} :
    accessed a width = some r ↔ width = .w32 ∧ a.toNat % 4 = 0 ∧ regAt a.toNat = some r := by
  unfold accessed
  split <;> simp_all

theorem forall_mem_arrayMap {P : Nat × Nat × (Nat → Reg) → Prop} : (∀ a ∈ arrayMap, P a) ↔
    P (0x0080, 16, .pm) ∧ P (0x0100, 8, .opd) ∧ P (0x0120, 8, .res) ∧ P (0x0140, 4, .info) ∧ P (0x0150, 2, .syn) ∧
      P (0x0160, 4, .win) ∧ P (0x0200, 32, .din) ∧ P (0x0280, 32, .tin) ∧ P (0x0300, 4, .tout) ∧
      P (0x0340, 16, .tdib) ∧ P (0x0400, 16, .cin) ∧ P (0x0440, 16, .cout) ∧ P (0x0480, 32, .cenc) ∧
      P (0x1000, 300, .dec) := by
  simp only [arrayMap, List.cons_append, List.nil_append, List.forall_mem_cons, List.not_mem_nil, IsEmpty.forall_iff,
    implies_true, and_true]

/-- What holds of every single register and of every word of every buffer holds of whatever the map has at an aligned
offset. -/
theorem regAt_induction {P : Nat → Reg → Prop} (hscalar : ∀ p ∈ scalarMap, P p.1 p.2)
    (harray : ∀ a ∈ arrayMap, ∀ w, w < a.2.1 → P (a.1 + 4 * w) (a.2.2 w)) {o : Nat} {r : Reg} (h4 : o % 4 = 0)
    (h : regAt o = some r) : P o r := by
  unfold regAt at h
  split at h
  next p hp =>
    obtain rfl : p.1 = o := by simpa using List.find?_some hp
    exact Option.some.inj h ▸ hscalar p (List.mem_of_find?_eq_some hp)
  next =>
    obtain ⟨a, hfind, rfl⟩ := Option.map_eq_some_iff.1 h
    have hmem := List.mem_of_find?_eq_some hfind
    obtain ⟨hlo, hhi⟩ : a.1 ≤ o ∧ o < a.1 + 4 * a.2.1 := by simpa using List.find?_some hfind
    have hbase : a.1 % 4 = 0 := (by decide : ∀ a ∈ arrayMap, a.1 % 4 = 0) a hmem
    have hP := harray a hmem ((o - a.1) / 4) (by omega)
    rwa [show a.1 + 4 * ((o - a.1) / 4) = o by omega] at hP

/-- The map has a register at the aligned offsets that are not reserved, and at no other (20_memory.md R88). -/
theorem isSome_regAt {o : Nat} (h4 : o % 4 = 0) : (regAt o).isSome = mappedOffset o := by
  cases h : regAt o with
  | some r =>
    refine (regAt_induction (P := fun o _ => mappedOffset o = true) (by decide) (forall_mem_arrayMap.2 ?_) h4 h).symm
    simp only [mappedOffset, decide_eq_true_eq]
    and_intros <;> intro w hw <;> omega
  | none =>
    unfold regAt at h
    split at h
    · cases h
    next hscalar =>
      have harray := forall_mem_arrayMap.1 (List.find?_eq_none.1 (Option.map_eq_none_iff.1 h))
      simp only [decide_eq_true_eq] at harray
      have hscalar : ∀ p ∈ scalarMap, p.1 ≠ o := fun p hp => by simpa using List.find?_eq_none.1 hscalar p hp
      simp only [scalarMap, List.cons_append, List.nil_append, List.forall_mem_cons, List.not_mem_nil,
        IsEmpty.forall_iff, implies_true, and_true] at hscalar
      refine (decide_eq_false ?_).symm
      omega

/-- The offset of a register (20_memory.md R88). -/
def Reg.offset : Reg → Nat
  | .id => 0x0000 | .ctrl => 0x0004 | .status => 0x0008 | .cmd => 0x000C | .irqEn => 0x0010 | .sqThresh => 0x0014
  | .errCode => 0x0018 | .errInfo => 0x001C | .syncInfo => 0x0020 | .warmT => 0x0024 | .searchCnt => 0x0028
  | .nxdnCnt => 0x002C | .sqCnt => 0x0030 | .frameCnt => 0x0034 | .capPtr => 0x0038 | .stat => 0x003C
  | .fecRes => 0x0040 | .trlRes => 0x0044 | .dp => 0x0048 | .vcnt => 0x004C | .param0 => 0x0050
  | .pm s => 0x0080 + 4 * s | .opd w => 0x0100 + 4 * w | .res w => 0x0120 + 4 * w | .info w => 0x0140 + 4 * w
  | .syn w => 0x0150 + 4 * w | .win w => 0x0160 + 4 * w | .din w => 0x0200 + 4 * w | .tin w => 0x0280 + 4 * w
  | .tout w => 0x0300 + 4 * w | .tdib w => 0x0340 + 4 * w | .cin w => 0x0400 + 4 * w | .cout w => 0x0440 + 4 * w
  | .cenc w => 0x0480 + 4 * w | .dec s => 0x1000 + 4 * s

/-- No register stands at two offsets. -/
theorem offset_of_regAt {o : Nat} {r : Reg} (h4 : o % 4 = 0) (h : regAt o = some r) : r.offset = o :=
  regAt_induction (P := fun o r => r.offset = o) (by decide) (forall_mem_arrayMap.2 (by simp [Reg.offset])) h4 h

/-- A write may reach the register at an offset exactly when the offset is writable (20_memory.md R88). -/
theorem writable_of_regAt {o : Nat} {r : Reg} (h4 : o % 4 = 0) (h : regAt o = some r) :
    r.writable = writableOffset o := by
  refine regAt_induction (P := fun o r => r.writable = writableOffset o) (by decide)
    (forall_mem_arrayMap.2 ?_) h4 h
  simp only [Reg.writable, writableOffset, Bool.false_eq, Bool.true_eq, decide_eq_true_eq,
    decide_eq_false_iff_not]
  and_intros <;> intro w hw <;> omega

/-- The registers and buffer words that a write replaces and does nothing else: RW, and not CAP_PTR with its range check
(20_memory.md R85, R88, R89). -/
inductive PlainReg : Reg → Prop
  | ctrl : PlainReg .ctrl
  | irqEn : PlainReg .irqEn
  | sqThresh : PlainReg .sqThresh
  | opd {w : Nat} (hw : w < 8) : PlainReg (.opd w)
  | din {w : Nat} (hw : w < 32) : PlainReg (.din w)
  | tin {w : Nat} (hw : w < 32) : PlainReg (.tin w)
  | cin {w : Nat} (hw : w < 16) : PlainReg (.cin w)

theorem plainReg_of_regAt {o : Nat} {r : Reg} (h4 : o % 4 = 0) (h : regAt o = some r) (hw : r.writable = true)
    (hstatus : r ≠ .status) (hcmd : r ≠ .cmd) (hcap : r ≠ .capPtr) : PlainReg r := by
  refine regAt_induction (P := fun _ r => r.writable = true → r ≠ .status → r ≠ .cmd → r ≠ .capPtr → PlainReg r)
    ?_ (forall_mem_arrayMap.2 ?_) h4 h hw hstatus hcmd hcap
  · simp [scalarMap, Reg.writable, PlainReg.ctrl, PlainReg.irqEn, PlainReg.sqThresh]
  · simp +contextual [Reg.writable, PlainReg.opd, PlainReg.din, PlainReg.tin, PlainReg.cin]

/-! ## Bad accesses and commands -/

/-- The error record is all that an error changes (60_exceptions.md R321). -/
theorem onlyErrorRecord_recordError (s : State) (e : ErrKind) (v : Word) :
    onlyErrorRecord s (s.recordError e v) e.bit e.code v :=
  ⟨rfl, rfl, rfl, rfl, rfl, rfl, rfl, rfl, rfl, rfl, rfl, rfl, rfl, rfl, rfl, rfl, rfl⟩

/-- Settles O8: a read that reaches no register and a write that reaches no writable one are the record of ERR_BUS. -/
theorem badAccessOnlyRecordsErrBus : Obligations.BadAccessOnlyRecordsErrBus := by
  intro s a width v hr
  refine ⟨fun hbad => ?read, fun hbad => ?write⟩
  case read =>
    rw [step_read hr]
    rcases busRead_cases s a width with ⟨r, -, -, hreg, -⟩ | ⟨-, hread⟩
    · obtain ⟨hw, h4, hat⟩ := accessed_eq_some_iff.1 hreg
      have hmapped : mappedOffset a.toNat = true := by rw [← isSome_regAt h4, hat]; rfl
      simp [hw, h4, hmapped] at hbad
    · exact ⟨s.recordError .bus (a.setWidth 32), by rw [hread]; rfl, onlyErrorRecord_recordError s .bus _⟩
  case write =>
    rw [step_write hr]
    have hreach : ∀ r, accessed a width = some r → r.writable = false := fun r hreg => by
      obtain ⟨hw, h4, hat⟩ := accessed_eq_some_iff.1 hreg
      rw [writable_of_regAt h4 hat]
      simpa [hw, h4] using hbad
    rcases busWrite_cases s a width v with ⟨hreg, -⟩ | ⟨r, hreg, -, hw, -⟩ | ⟨-, hwrite⟩
    · cases hreach _ hreg
    · rw [hreach r hreg] at hw; cases hw
    · exact ⟨_, hwrite, onlyErrorRecord_recordError s .bus _⟩

/-- A write to CMD issues its word (20_memory.md R86). -/
theorem step_cmdWrite {s : State} (hr : s.rstN = true) (v : Word) : step (s.offer (cmdWrite v)) = issue v s := by
  rw [cmdWrite, step_write hr, busWrite, accessed_cmd]

/-- Settles O7: the step is that of a CMD write offered to the state whose queue has lost it. -/
theorem stepRunsDecodedCommand : Obligations.StepRunsDecodedCommand := by
  intro s rest v hr hp
  have hoffer : s = State.offer { s with pending := rest } (cmdWrite v) := by cases s; cases hp; rfl
  have hstep : step s = issue v { s with pending := rest } :=
    (congrArg step hoffer).trans (step_cmdWrite (s := { s with pending := rest }) hr v)
  refine ⟨hstep, fun i hi => ?_, fun e he => ?_⟩
  · rw [hstep, issue, hi]
  · exact ⟨_, by rw [hstep, issue, he], onlyErrorRecord_recordError _ .illegal v⟩

/-- A write that reaches a writable register other than CMD is the write of that register (20_memory.md R85). -/
theorem step_writeReg {s : State} (hr : s.rstN = true) {a : Offset} {r : Reg} (h4 : a.toNat % 4 = 0)
    (hreg : regAt a.toNat = some r) (hw : r.writable = true) (hcmd : r ≠ .cmd) (v : Word) :
    step (s.offer (.write a .w32 v)) = .next (writeReg s v r) := by
  have hacc : accessed a .w32 = some r := accessed_eq_some_iff.2 ⟨rfl, h4, hreg⟩
  rw [step_write hr]
  rcases busWrite_cases s a .w32 v with ⟨h, -⟩ | ⟨r', h, -, -, hwrite⟩ | ⟨h, -⟩
  · exact absurd (Option.some.inj (hacc.symm.trans h)) hcmd
  · rwa [← Option.some.inj (hacc.symm.trans h)] at hwrite
  · rw [h r hacc] at hw; cases hw

/-- Settles O17: the two cases of a write to CAP_PTR. -/
theorem capPtrWrite : Obligations.CapPtrWrite := by
  intro s v hr
  have hstep : step (s.offer (.write 0x0038 .w32 v)) = .next (writeCapPtr s v) :=
    step_writeReg hr (r := .capPtr) (by decide) (by decide) rfl (by decide) v
  rw [hstep]
  rcases writeCapPtr_cases s v with ⟨hle, he⟩ | ⟨hgt, he⟩ <;> rw [he]
  · exact ⟨fun _ => rfl, fun hgt => by omega⟩
  · exact ⟨fun hle => by omega, fun _ => ⟨_, rfl, onlyErrorRecord_recordError s .range v⟩⟩

/-! ## What reads give -/

/-- Settles O10: none of these registers holds a buffer element, and each reads as its element. -/
theorem scalarRegistersRead : Obligations.ScalarRegistersRead := fun _ hr =>
  ⟨readsAs_readReg hr (r := .id) (by decide) rfl, readsAs_readReg hr (r := .ctrl) (by decide) rfl,
    readsAs_readReg hr (r := .cmd) (by decide) rfl, readsAs_readReg hr (r := .irqEn) (by decide) rfl,
    readsAs_readReg hr (r := .sqThresh) (by decide) rfl, readsAs_readReg hr (r := .errCode) (by decide) rfl,
    readsAs_readReg hr (r := .errInfo) (by decide) rfl, readsAs_readReg hr (r := .warmT) (by decide) rfl,
    readsAs_readReg hr (r := .searchCnt) (by decide) rfl, readsAs_readReg hr (r := .nxdnCnt) (by decide) rfl,
    readsAs_readReg hr (r := .sqCnt) (by decide) rfl, readsAs_readReg hr (r := .frameCnt) (by decide) rfl,
    readsAs_readReg hr (r := .capPtr) (by decide) rfl, readsAs_readReg hr (r := .dp) (by decide) rfl,
    readsAs_readReg hr (r := .vcnt) (by decide) rfl⟩

/-- The word of a good read has every bit whose element holds a value as it stands (10_state.md R62). -/
theorem exists_readsAs {s : State} (hr : s.rstN = true) {o : Nat} {r : Reg} (hreg : regAt o = some r)
    (ho : o < 8192 := by omega) (h4 : o % 4 = 0 := by omega) :
    ∃ x, readsAs s o x ∧ ∀ {i free val}, (bufferWord s.unwritten r).getLsbD i = free →
      (readReg s r).getLsbD i = val → free = false → x.getLsbD i = val := by
  refine ⟨_, (readsAs_iff hr ((accessed_aligned ho h4).trans hreg) _).2 rfl, ?_⟩
  rintro i _ _ hfree rfl rfl
  have hfree : (unwrittenBits s r).getLsbD i = false := hfree
  split
  · rfl
  · by_cases h32 : i < 32
    · rw [BitVec.getLsbD_or, BitVec.getLsbD_and, BitVec.getLsbD_and, BitVec.getLsbD_not, hfree, decide_eq_true h32]
      simp
    · rw [BitVec.getLsbD_of_ge _ _ (Nat.le_of_not_lt h32), BitVec.getLsbD_of_ge _ _ (Nat.le_of_not_lt h32)]

theorem getLsbD_byteWord {n : Nat} (v : Vector Byte n) (j l b : Nat) (hl : l < 4) (hb : b < 8) :
    (byteWord v j).getLsbD (8 * l + b) = (v.getD (4 * j + l) 0).getLsbD b :=
  getLsbD_laneWord _ j l b hl hb

theorem getLsbD_winWord (window : List Dibit) {w i : Nat} (hw : w < 4) (hi : i < 32) :
    (vecWord (windowVec window) w).getLsbD i = (window.getD ((32 * w + i) / 2) 0).getLsbD (i % 2) := by
  rw [getLsbD_vecWord_of_lt _ _ hi, getLsbD_windowVec, decide_eq_true (by omega), Bool.true_and,
    show (32 * w + i) % 2 = i % 2 by omega]

/-- Settles O12: each word read is that of its register, bit by bit as the word forms give it. -/
theorem bufferWordsRead : Obligations.BufferWordsRead := by
  intro s hr
  refine ⟨fun w hw => ?pm, fun w hw => ?win, fun w hw => ?dec, fun w hw => ?opd_res, fun w hw => ?info,
    fun w hw => ?syn, fun w hw => ?din_tin_cenc, fun w hw => ?tout, fun w hw => ?tdib_cin_cout⟩
  case pm => exact readsAs_readReg hr (regAt_pm w hw) rfl
  case win => exact ⟨_, readsAs_readReg hr (regAt_win w hw) rfl, fun i hi => getLsbD_winWord _ hw hi⟩
  case dec =>
    obtain ⟨x, hx, hdec⟩ := exists_readsAs hr (regAt_dec w hw)
    exact ⟨x, hx, fun i hi => hdec (getLsbD_decWord _ hi) (getLsbD_decWord _ hi)⟩
  case opd_res =>
    obtain ⟨x, hx, hopd⟩ := exists_readsAs hr (regAt_opd w hw)
    obtain ⟨y, hy, hres⟩ := exists_readsAs hr (regAt_res w hw)
    exact ⟨x, y, hx, hy, fun i hi => ⟨hopd (getLsbD_vecWord_of_lt _ _ hi) (getLsbD_vecWord_of_lt _ _ hi),
      hres (getLsbD_vecWord_of_lt _ _ hi) (getLsbD_vecWord_of_lt _ _ hi)⟩⟩
  case info =>
    obtain ⟨x, hx, hinfo⟩ := exists_readsAs hr (regAt_info w hw)
    exact ⟨x, hx, fun i hi => hinfo (getLsbD_vecWord_of_lt _ _ hi) (getLsbD_vecWord_of_lt _ _ hi)⟩
  case syn =>
    obtain ⟨x, hx, hsyn⟩ := exists_readsAs hr (regAt_syn w hw)
    exact ⟨x, hx, fun i hi => hsyn (getLsbD_vecWord_of_lt _ _ hi) (getLsbD_vecWord_of_lt _ _ hi)⟩
  case din_tin_cenc =>
    obtain ⟨x, hx, hdin⟩ := exists_readsAs hr (regAt_din w hw)
    obtain ⟨y, hy, htin⟩ := exists_readsAs hr (regAt_tin w hw)
    obtain ⟨z, hz, hcenc⟩ := exists_readsAs hr (regAt_cenc w hw)
    exact ⟨x, y, z, hx, hy, hz, fun l hl b hb =>
      ⟨hdin (getLsbD_dibitWord _ w l b hl hb) (getLsbD_dibitWord _ w l b hl hb),
        htin (getLsbD_dibitWord _ w l b hl hb) (getLsbD_dibitWord _ w l b hl hb),
        hcenc (getLsbD_streamWord _ w l b hl hb) (getLsbD_streamWord _ w l b hl hb)⟩⟩
  case tout =>
    obtain ⟨x, hx, htout⟩ := exists_readsAs hr (regAt_tout w hw)
    exact ⟨x, hx, fun l hl b hb => htout (getLsbD_byteWord _ w l b hl hb) (getLsbD_byteWord _ w l b hl hb)⟩
  case tdib_cin_cout =>
    obtain ⟨x, hx, htdib⟩ := exists_readsAs hr (regAt_tdib w hw)
    obtain ⟨y, hy, hcin⟩ := exists_readsAs hr (regAt_cin w hw)
    obtain ⟨z, hz, hcout⟩ := exists_readsAs hr (regAt_cout w hw)
    exact ⟨x, y, z, hx, hy, hz, fun l hl b hb =>
      ⟨htdib (getLsbD_dibitWord _ w l b hl hb) (getLsbD_dibitWord _ w l b hl hb),
        hcin (getLsbD_streamWord _ w l b hl hb) (getLsbD_streamWord _ w l b hl hb),
        hcout (getLsbD_streamWord _ w l b hl hb) (getLsbD_streamWord _ w l b hl hb)⟩⟩

/-- A read of STATUS gives its word (10_state.md R36). -/
theorem readsAs_status {s : State} (hr : s.rstN = true) (x : Word) : readsAs s 0x0008 x ↔ x = s.statusWord :=
  readsAs_iff hr (r := .status) (by decide) x

/-- Settles O16: a write to STATUS reaches the sticky flags only, and STATUS reads the other bits from elsewhere. -/
theorem statusWriteClearsOnes : Obligations.StatusWriteClearsOnes := by
  intro s v hr
  refine ⟨_, step_writeReg hr (r := .status) (by decide) (by decide) rfl (by decide) v, rfl, fun x y hx hy i hi => ?_⟩
  obtain rfl := (readsAs_status hr x).1 hx
  obtain rfl := (readsAs_status (s := writeReg s v .status) hr y).1 hy
  rw [getLsbD_statusWord, getLsbD_statusWord]
  by_cases hlive : i < 6
  · rw [if_pos hlive, if_pos hlive, if_neg (by omega)]; rfl
  · rw [if_neg hlive, if_neg hlive,
      show (writeReg s v .status).ctl.sticky.getLsbD i = (s.ctl.sticky.getLsbD i && !v.getLsbD i) by
        simp [writeReg, hi, -BitVec.getLsbD_eq_getElem]]
    cases v.getLsbD i with
    | false => simp
    | true =>
      split
      · simp
      next h => rw [decide_eq_false (by simp at h; omega), Bool.and_false, Bool.and_false]

/-! ## What a write leaves to be read -/

theorem vecWord_setVecWord_self {n : Nat} (v : BitVec n) {j : Nat} (x : Word) (hj : 32 * j + 32 ≤ n) :
    vecWord (setVecWord v j x) j = x := by
  refine BitVec.eq_of_getLsbD_eq fun i hi => ?_
  rw [getLsbD_vecWord_of_lt _ _ hi, getLsbD_setVecWord, if_pos (by omega), Nat.add_sub_cancel_left]

theorem vecWord_setVecWord_of_ne {n : Nat} (v : BitVec n) {j k : Nat} (x : Word) (hjk : k ≠ j) :
    vecWord (setVecWord v j x) k = vecWord v k := by
  refine BitVec.eq_of_getLsbD_eq fun i hi => ?_
  rw [getLsbD_vecWord_of_lt _ _ hi, getLsbD_vecWord_of_lt _ _ hi, getLsbD_setVecWord, if_neg (by omega)]

theorem streamWord_setStreamWord_self {n : Nat} (v : BitVec n) {j : Nat} (x : Word) (hj : 32 * j + 32 ≤ n) :
    streamWord (setStreamWord v j x) j = x := by
  rw [streamWord, setStreamWord, vecWord_setVecWord_self v _ hj, streamSwap_streamSwap]

theorem streamWord_setStreamWord_of_ne {n : Nat} (v : BitVec n) {j k : Nat} (x : Word) (hjk : k ≠ j) :
    streamWord (setStreamWord v j x) k = streamWord v k := by
  rw [streamWord, setStreamWord, vecWord_setVecWord_of_ne v _ hjk, streamWord]

/-- Writing m elements one after the other from the one at j on. -/
theorem getD_foldl_setIfInBounds {α : Type} {n : Nat} (b : Vector α n) (j : Nat) (f : Nat → α) (m i : Nat) (d : α) :
    ((List.range m).foldl (fun acc l => acc.setIfInBounds (j + l) (f l)) b).getD i d =
      if j ≤ i ∧ i < j + m ∧ i < n then f (i - j) else b.getD i d := by
  induction m with
  | zero => rw [if_neg (by omega)]; rfl
  | succ m ih =>
    rw [List.range_succ, List.foldl_append, List.foldl_cons, List.foldl_nil]
    by_cases hij : j + m = i
    · subst hij
      by_cases hn : j + m < n
      · rw [getD_setIfInBounds_self _ _ _ _ hn, if_pos (by omega), Nat.add_sub_cancel_left]
      · rw [if_neg (by omega), getD_of_ge _ _ (by omega), getD_of_ge _ _ (by omega)]
    · rw [getD_setIfInBounds_ne _ _ _ _ _ hij, ih]
      exact if_congr (by omega) rfl rfl

/-- Writing bus word j of a dibit buffer replaces the dibits 4j to 4j + 3 and no other (20_memory.md R88). -/
theorem getD_setDibitWord {n : Nat} (b : Vector Dibit n) (j : Nat) (x : Word) (i : Nat) :
    (setDibitWord b j x).getD i 0 =
      if 4 * j ≤ i ∧ i < 4 * j + 4 ∧ i < n then x.extractLsb' (8 * (i - 4 * j)) 2 else b.getD i 0 :=
  getD_foldl_setIfInBounds b (4 * j) (fun l => x.extractLsb' (8 * l) 2) 4 i 0

theorem getLsbD_dibitMask : ∀ i, i < 32 → (0x03030303 : Word).getLsbD i = decide (i % 8 < 2) := by decide

theorem dibitWord_setDibitWord_self {n : Nat} (b : Vector Dibit n) {j : Nat} (x : Word) (hj : 4 * j + 4 ≤ n) :
    dibitWord (setDibitWord b j x) j = x &&& 0x03030303 := by
  refine BitVec.eq_of_getLsbD_eq fun i hi => ?_
  rw [getLsbD_dibitWord_div_mod _ _ hi, getD_setDibitWord, if_pos (by omega), BitVec.getLsbD_extractLsb',
    BitVec.getLsbD_and, getLsbD_dibitMask i hi, Bool.and_comm, Nat.add_sub_cancel_left, Nat.div_add_mod]

theorem dibitWord_setDibitWord_of_ne {n : Nat} (b : Vector Dibit n) {j k : Nat} (x : Word) (hjk : k ≠ j) :
    dibitWord (setDibitWord b j x) k = dibitWord b k := by
  refine BitVec.eq_of_getLsbD_eq fun i hi => ?_
  rw [getLsbD_dibitWord_div_mod _ _ hi, getLsbD_dibitWord_div_mod _ _ hi, getD_setDibitWord, if_neg (by omega)]

/-- CTRL keeps its nine bits (10_state.md R35). -/
theorem setWidth_nine_setWidth (v : Word) : (v.setWidth 9).setWidth 32 = v &&& 0x000001FF := by
  refine BitVec.eq_of_toNat_eq ?_
  rw [BitVec.toNat_setWidth_of_le (by decide), BitVec.toNat_setWidth, BitVec.toNat_and]
  exact (Nat.and_two_pow_sub_one_eq_mod v.toNat 9).symm

/-- The bits of a register that a write of it replaces: CTRL[8:0], the sticky flags of IRQ_EN, lane bits 1:0 of the
dibit buffers, and of the others every bit (20_memory.md R83, R88; 10_state.md R35, R37). -/
def Reg.writtenBits : Reg → Word
  | .ctrl => 0x000001FF
  | .irqEn => 0x001F3F00
  | .din _ | .tin _ => 0x03030303
  | _ => BitVec.allOnes 32

/-- After a write the word is the value written, and all its elements hold values (20_memory.md R85; 10_state.md R62). -/
theorem read_writeReg_self {r : Reg} (h : PlainReg r) (s : State) (v : Word) :
    readReg (writeReg s v r) r = v &&& r.writtenBits ∧ unwrittenBits (writeReg s v r) r = 0 := by
  cases h with
  | ctrl => exact ⟨setWidth_nine_setWidth v, rfl⟩
  | irqEn =>
    have hmask : v &&& stickyMask &&& stickyMask = v &&& stickyMask := by rw [BitVec.and_assoc, BitVec.and_self]
    exact ⟨hmask, rfl⟩
  | sqThresh => exact ⟨BitVec.and_allOnes.symm, rfl⟩
  | opd hw =>
    exact ⟨(vecWord_setVecWord_self _ v (by omega)).trans BitVec.and_allOnes.symm,
      vecWord_setVecWord_self _ 0 (by omega)⟩
  | cin hw =>
    exact ⟨(streamWord_setStreamWord_self _ v (by omega)).trans BitVec.and_allOnes.symm,
      streamWord_setStreamWord_self _ 0 (by omega)⟩
  | din hw => exact ⟨dibitWord_setDibitWord_self _ v (by omega), dibitWord_setDibitWord_self _ 0 (by omega)⟩
  | tin hw => exact ⟨dibitWord_setDibitWord_self _ v (by omega), dibitWord_setDibitWord_self _ 0 (by omega)⟩

/-! New contents of one buffer, and of the record of which of its elements hold values, are seen in the words of that
buffer only (20_memory.md R81). -/

theorem read_setFec_opd {s : State} {x free : Vec} {r : Reg}
    (h : ∀ w, r = .opd w → vecWord x w = vecWord s.fec.opd w ∧ vecWord free w = vecWord s.unwritten.opd w) :
    readReg ((s.setFec { s.fec with opd := x }).setUnwritten { s.unwritten with opd := free }) r = readReg s r ∧
      unwrittenBits ((s.setFec { s.fec with opd := x }).setUnwritten { s.unwritten with opd := free }) r =
        unwrittenBits s r := by
  cases r with
  | opd w => exact h w rfl
  | _ => exact ⟨rfl, rfl⟩

theorem read_setDil_din {s : State} {x free : Vector Dibit 128} {r : Reg}
    (h : ∀ w, r = .din w → dibitWord x w = dibitWord s.dil.din w ∧ dibitWord free w = dibitWord s.unwritten.din w) :
    readReg ((s.setDil { s.dil with din := x }).setUnwritten { s.unwritten with din := free }) r = readReg s r ∧
      unwrittenBits ((s.setDil { s.dil with din := x }).setUnwritten { s.unwritten with din := free }) r =
        unwrittenBits s r := by
  cases r with
  | din w => exact h w rfl
  | _ => exact ⟨rfl, rfl⟩

theorem read_setTrl_tin {s : State} {x free : Vector Dibit 128} {r : Reg}
    (h : ∀ w, r = .tin w → dibitWord x w = dibitWord s.trl.tin w ∧ dibitWord free w = dibitWord s.unwritten.tin w) :
    readReg ((s.setTrl { s.trl with tin := x }).setUnwritten { s.unwritten with tin := free }) r = readReg s r ∧
      unwrittenBits ((s.setTrl { s.trl with tin := x }).setUnwritten { s.unwritten with tin := free }) r =
        unwrittenBits s r := by
  cases r with
  | tin w => exact h w rfl
  | _ => exact ⟨rfl, rfl⟩

theorem read_setVit_cin {s : State} {x free : BitVec 512} {r : Reg}
    (h : ∀ w, r = .cin w → streamWord x w = streamWord s.vit.cin w ∧ streamWord free w = streamWord s.unwritten.cin w) :
    readReg ((s.setVit { s.vit with cin := x }).setUnwritten { s.unwritten with cin := free }) r = readReg s r ∧
      unwrittenBits ((s.setVit { s.vit with cin := x }).setUnwritten { s.unwritten with cin := free }) r =
        unwrittenBits s r := by
  cases r with
  | cin w => exact h w rfl
  | _ => exact ⟨rfl, rfl⟩

/-- A write leaves the word of every other register, and which of its elements hold values (20_memory.md R81). -/
theorem read_writeReg_of_ne {r r' : Reg} (h : PlainReg r) (hne : r' ≠ r) (s : State) (v : Word) :
    readReg (writeReg s v r) r' = readReg s r' ∧ unwrittenBits (writeReg s v r) r' = unwrittenBits s r' := by
  cases h with
  | ctrl => cases r' with
    | ctrl => exact absurd rfl hne
    | _ => exact ⟨rfl, rfl⟩
  | irqEn => cases r' with
    | irqEn => exact absurd rfl hne
    | _ => exact ⟨rfl, rfl⟩
  | sqThresh => cases r' with
    | sqThresh => exact absurd rfl hne
    | _ => exact ⟨rfl, rfl⟩
  | opd =>
    refine read_setFec_opd fun w' hr' => ?_
    have hw := fun hw : w' = _ => hne (hr'.trans (congrArg Reg.opd hw))
    exact ⟨vecWord_setVecWord_of_ne _ v hw, vecWord_setVecWord_of_ne _ 0 hw⟩
  | din =>
    refine read_setDil_din fun w' hr' => ?_
    have hw := fun hw : w' = _ => hne (hr'.trans (congrArg Reg.din hw))
    exact ⟨dibitWord_setDibitWord_of_ne _ v hw, dibitWord_setDibitWord_of_ne _ 0 hw⟩
  | tin =>
    refine read_setTrl_tin fun w' hr' => ?_
    have hw := fun hw : w' = _ => hne (hr'.trans (congrArg Reg.tin hw))
    exact ⟨dibitWord_setDibitWord_of_ne _ v hw, dibitWord_setDibitWord_of_ne _ 0 hw⟩
  | cin =>
    refine read_setVit_cin fun w' hr' => ?_
    have hw := fun hw : w' = _ => hne (hr'.trans (congrArg Reg.cin hw))
    exact ⟨streamWord_setStreamWord_of_ne _ v hw, streamWord_setStreamWord_of_ne _ 0 hw⟩

/-- An aligned write to a writable offset other than STATUS, CMD and CAP_PTR is the write of a plain register. -/
theorem exists_plainReg {a : Offset} (h4 : a.toNat % 4 = 0) (hw : writableOffset a.toNat = true) (hstatus : a ≠ 0x0008)
    (hcmd : a ≠ 0x000C) (hcap : a ≠ 0x0038) :
    ∃ r, PlainReg r ∧ regAt a.toNat = some r ∧
      ∀ s v, s.rstN = true → step (s.offer (.write a .w32 v)) = .next (writeReg s v r) := by
  have hsome : (regAt a.toNat).isSome = true := by
    rw [isSome_regAt h4]
    simp only [mappedOffset, writableOffset, decide_eq_true_eq] at hw ⊢
    omega
  obtain ⟨r, hreg⟩ := Option.isSome_iff_exists.1 hsome
  have hwr : r.writable = true := (writable_of_regAt h4 hreg).trans hw
  have hne : ∀ {r' : Reg} {b : Offset}, r'.offset = b.toNat → a ≠ b → r ≠ r' := fun hoff hab hr =>
    hab (BitVec.eq_of_toNat_eq (by rw [← hoff, ← hr, offset_of_regAt h4 hreg]))
  have hrcmd : r ≠ .cmd := hne rfl hcmd
  exact ⟨r, plainReg_of_regAt h4 hreg hwr (hne rfl hstatus) hrcmd (hne rfl hcap), hreg,
    fun s v hr => step_writeReg hr h4 hreg hwr hrcmd v⟩

/-- An aligned read at an offset that the map has a register at. -/
theorem readsAs_iff_of_regAt {s : State} (hr : s.rstN = true) {a : Offset} {r : Reg} (h4 : a.toNat % 4 = 0)
    (hreg : regAt a.toNat = some r) (x : Word) :
    readsAs s a.toNat x ↔ x = if unwrittenBits s r = 0 then readReg s r
      else (readReg s r &&& ~~~unwrittenBits s r) ||| (Config.drawWord s.draws &&& unwrittenBits s r) :=
  readsAs_iff hr ((accessed_aligned a.isLt h4).trans hreg) x

theorem rstN_draws_writeReg {r : Reg} (h : PlainReg r) (s : State) (v : Word) :
    (writeReg s v r).rstN = s.rstN ∧ (writeReg s v r).draws = s.draws := by
  cases h <;> simp [writeReg]

/-- The bits that a write of the register at an offset replaces, as R83 and R88 give them by the offset. -/
theorem and_writtenBits {a : Offset} {r : Reg} (h4 : a.toNat % 4 = 0) (hreg : regAt a.toNat = some r)
    (h : PlainReg r) (v : Word) :
    v &&& r.writtenBits =
      if a = 0x0004 then v &&& 0x000001FF
      else if a = 0x0010 then v &&& 0x001F3F00
      else if 0x0200 ≤ a.toNat ∧ a.toNat < 0x0300 then v &&& 0x03030303
      else v := by
  have hoff : r.offset = a.toNat := offset_of_regAt h4 hreg
  have hne : ∀ {b : Offset}, r.offset ≠ b.toNat → a ≠ b := fun hb hab => hb (hab ▸ hoff)
  cases h with
  | ctrl => exact (if_pos (BitVec.eq_of_toNat_eq hoff.symm)).symm
  | irqEn => rw [if_neg (hne (by decide)), if_pos (BitVec.eq_of_toNat_eq hoff.symm)]; rfl
  | sqThresh =>
    rw [if_neg (hne (by decide)), if_neg (hne (by decide)), if_neg (by rw [← hoff]; decide)]
    exact BitVec.and_allOnes
  | opd | cin =>
    simp only [Reg.offset] at hoff hne
    rw [if_neg (hne (by show _ ≠ 4; omega)), if_neg (hne (by show _ ≠ 16; omega)), if_neg (by omega)]
    exact BitVec.and_allOnes
  | din | tin =>
    simp only [Reg.offset] at hoff hne
    rw [if_neg (hne (by show _ ≠ 4; omega)), if_neg (hne (by show _ ≠ 16; omega)), if_pos (by omega)]; rfl

/-- Settles O14: the word written holds values from then on, those of the bits the register has. -/
theorem writeIsReadBack : Obligations.WriteIsReadBack := by
  intro s a v hr h4 hw hstatus hcmd hcap
  obtain ⟨r, hplain, hreg, hstep⟩ := exists_plainReg h4 hw hstatus hcmd hcap
  obtain ⟨hread, hwritten⟩ := read_writeReg_self hplain s v
  refine ⟨_, hstep s v hr, ?_⟩
  rw [← and_writtenBits h4 hreg hplain, ← hread]
  exact readsAs_readReg ((rstN_draws_writeReg hplain s v).1.trans hr) hreg hwritten

/-- Settles O15: what a read of another register gives is made of parts that the write leaves. -/
theorem writeLeavesOtherWords : Obligations.WriteLeavesOtherWords := by
  intro s a b v x hr ha4 hb4 hw hstatus hcmd hcap hmapped hab hx
  obtain ⟨r, hplain, hreg, hstep⟩ := exists_plainReg ha4 hw hstatus hcmd hcap
  obtain ⟨r', hreg'⟩ := Option.isSome_iff_exists.1 ((isSome_regAt hb4).trans hmapped)
  have hne : r' ≠ r := by
    rintro rfl
    exact hab (BitVec.eq_of_toNat_eq ((offset_of_regAt ha4 hreg).symm.trans (offset_of_regAt hb4 hreg')))
  obtain ⟨hread, hfree⟩ := read_writeReg_of_ne hplain hne s v
  obtain ⟨hrst, hdraws⟩ := rstN_draws_writeReg hplain s v
  refine ⟨_, hstep s v hr, ?_⟩
  rw [readsAs_iff_of_regAt (hrst.trans hr) hb4 hreg', hread, hfree, hdraws, ← readsAs_iff_of_regAt hr hb4 hreg']
  exact hx

/-! ## Good accesses -/

theorem setVecWord_zero_and_not {n : Nat} (v : BitVec n) (j : Nat) : setVecWord v j 0 &&& ~~~v = 0 := by
  refine BitVec.eq_of_getLsbD_eq fun i hi => ?_
  rw [BitVec.getLsbD_and, BitVec.getLsbD_not, decide_eq_true hi, Bool.true_and, getLsbD_setVecWord]
  split <;> simp [-BitVec.getLsbD_eq_getElem]

theorem setStreamWord_zero_and_not {n : Nat} (v : BitVec n) (j : Nat) : setStreamWord v j 0 &&& ~~~v = 0 := by
  rw [setStreamWord, show streamSwap 0 = 0 by decide]
  exact setVecWord_zero_and_not v j

theorem setDibitWord_zero_and_not {n : Nat} (b : Vector Dibit n) (j i : Nat) :
    (setDibitWord b j 0).getD i 0 &&& ~~~b.getD i 0 = 0 := by
  rw [getD_setDibitWord]
  split
  · simp
  · exact BitVec.and_not_self _

/-- Settles O9: a good read moves on to the next free value at most, and a plain write replaces one register or one
word of a buffer and of its record. -/
theorem goodAccessHasNoSideEffect : Obligations.GoodAccessHasNoSideEffect := by
  intro s a hr h4
  refine ⟨fun hmapped => ?read, fun hw hstatus hcmd hcap v => ?write⟩
  case read =>
    obtain ⟨r, hreg⟩ := Option.isSome_iff_exists.1 ((isSome_regAt h4).trans hmapped)
    have hacc : accessed a .w32 = some r := accessed_eq_some_iff.2 ⟨rfl, h4, hreg⟩
    rw [step_read hr]
    rcases busRead_cases s a .w32 with ⟨-, x, n, -, hread, -⟩ | ⟨hnone, -⟩
    · exact ⟨x, n, by rw [hread]; rfl⟩
    · cases hacc.symm.trans hnone
  case write =>
    obtain ⟨r, hplain, -, hstep⟩ := exists_plainReg h4 hw hstatus hcmd hcap
    refine ⟨_, hstep s v hr, ?_⟩
    have hopd := BitVec.and_not_self s.unwritten.opd
    have hcin := BitVec.and_not_self s.unwritten.cin
    have htin := fun j => BitVec.and_not_self (s.unwritten.tin.getD j 0)
    have hdin := fun j => BitVec.and_not_self (s.unwritten.din.getD j 0)
    cases hplain with
    | ctrl | irqEn | sqThresh => exact ⟨rfl, hopd, hcin, fun j => ⟨htin j, hdin j⟩⟩
    | opd => exact ⟨rfl, setVecWord_zero_and_not _ _, hcin, fun j => ⟨htin j, hdin j⟩⟩
    | cin => exact ⟨rfl, hopd, setStreamWord_zero_and_not _ _, fun j => ⟨htin j, hdin j⟩⟩
    | @tin w =>
      have hfree := setDibitWord_zero_and_not s.unwritten.tin w
      rw [writeReg]
      generalize setDibitWord s.trl.tin w v = x, setDibitWord s.unwritten.tin w 0 = free at hfree ⊢
      exact ⟨rfl, hopd, hcin, fun j => ⟨hfree j, hdin j⟩⟩
    | @din w =>
      have hfree := setDibitWord_zero_and_not s.unwritten.din w
      rw [writeReg]
      generalize setDibitWord s.dil.din w v = x, setDibitWord s.unwritten.din w 0 = free at hfree ⊢
      exact ⟨rfl, hopd, hcin, fun j => ⟨htin j, hfree j⟩⟩

/-! ## Every input is taken -/

/-- What of the state is the host's side of the block: RST_N, the accesses not yet taken, and the word last read. -/
def State.hostSide (s : State) : Bool × List HostInput × Word := (s.rstN, s.pending, s.rdata)

/-! Commands and register writes reach the units only. -/

theorem frameDibit_hostSide (d : Dibit) (v : Word) (s : State) : (frameDibit d v s).hostSide = s.hostSide := by
  rcases frameDibit_cases d v s with ⟨h, -⟩ | ⟨-, ⟨h, -⟩ | ⟨h, -⟩ | ⟨h, -⟩⟩ <;> rw [h] <;> rfl

theorem noMatch_hostSide (s : State) : (noMatch s).hostSide = s.hostSide := by
  rcases noMatch_cases s with ⟨h, -⟩ | ⟨h, -⟩ <;> rw [h] <;> rfl

theorem lookSymbol_hostSide (warm : Bool) (s : State) : (lookSymbol warm s).hostSide = s.hostSide := by
  rcases lookSymbol_cases warm s with ⟨u, -, h⟩ | ⟨u, idx, e, m, -, -, -, h⟩ <;> rw [h]
  · exact noMatch_hostSide _
  · rfl

theorem pushSymbol_hostSide (d : Dibit) (s : State) : (pushSymbol d s).hostSide = s.hostSide := by
  rw [pushSymbol_eq]
  cases s.sync.state with
  | look => exact lookSymbol_hostSide _ _
  | found | locked => exact frameDibit_hostSide _ _ _

theorem effect_hostSide (i : Instr) (s : State) : (effect i s).hostSide = s.hostSide := by
  cases i with
  | nop | softReset | convStart | resync | syncReset => rfl
  | pushSymbol d => exact pushSymbol_hostSide d s
  | fecDecode c => obtain ⟨u, -, ⟨b, h⟩ | h⟩ := fecDecode_frame c s <;> simp [effect, h, State.hostSide]
  | fecEncode c => rcases fecEncode_cases c s with ⟨-, h⟩ | ⟨-, h⟩ <;> simp [effect, h, State.hostSide]
  | convStep s0 s1 => rcases convStep_cases s0 s1 s with ⟨-, h⟩ | ⟨-, h⟩ <;> simp [effect, h, State.hostSide]
  | convChainback n => rcases convChainback_cases n s with ⟨-, h⟩ | ⟨-, h⟩ <;> simp [effect, h, State.hostSide]
  | convEncode n => rcases convEncode_cases n s with ⟨-, h⟩ | ⟨-, h⟩ <;> simp [effect, h, State.hostSide]
  | trellis12 => rcases trellis12_cases s with ⟨-, h⟩ | ⟨k, -, -, h⟩ <;> simp [effect, h, State.hostSide]
  | pushSample v =>
    rcases pushSample_cases v s with ⟨-, h⟩ | ⟨-, -, ⟨-, h⟩ | ⟨-, h⟩⟩ <;> simp [effect, h, State.hostSide]
  | deint slot => rcases deint_cases slot s with ⟨-, h⟩ | ⟨-, h⟩ <;> simp [effect, h, State.hostSide]
  | pack off cnt shr => rcases pack_cases off cnt shr s with ⟨-, h⟩ | ⟨-, h⟩ <;> simp [effect, h, State.hostSide]

theorem writeReg_hostSide (s : State) (v : Word) (r : Reg) : (writeReg s v r).hostSide = s.hostSide := by
  cases r
  case capPtr => rcases writeCapPtr_cases s v with ⟨-, h⟩ | ⟨-, h⟩ <;> simp [writeReg, h, State.hostSide]
  all_goals simp [writeReg, State.hostSide]

/-- Issuing a word answers a next state, or the fault of a command that reads an element without a value
(10_state.md R62). -/
theorem issue_next_or_fault (v : Word) (s : State) :
    (∃ t, issue v s = .next t ∧ t.hostSide = s.hostSide) ∨
    ∃ i b k, decode v = .ok i ∧ readsElement s i b k ∧ holdsNoValue s b k ∧
      issue v s = .fault (.unwritten i b k) := by
  rcases issue_cases v s with ⟨i, hi, hissue⟩ | ⟨-, -, hissue⟩ <;> rw [hissue]
  · rw [exec_eq_reading]
    rcases reading_cases s i (operandBuffer i) (operandElements s i) (effect i s) with
      ⟨-, h⟩ | ⟨k, hk, hno, h⟩ <;> rw [h]
    · exact .inl ⟨_, rfl, effect_hostSide i s⟩
    · exact .inr ⟨i, _, k, hi, (readsElement_iff s i _ k).2 ⟨rfl, hk⟩, (holdsNoValue_iff s _ k).2 hno, rfl⟩
  · exact .inl ⟨_, rfl, rfl⟩

/-- A write that reaches CMD is a CMD write (20_memory.md R86). -/
theorem eq_cmdWrite_of_accessed {a : Offset} {width : AccessWidth} (h : accessed a width = some .cmd) (v : Word) :
    HostInput.write a width v = cmdWrite v := by
  obtain ⟨rfl, h4, hreg⟩ := accessed_eq_some_iff.1 h
  obtain rfl : a = cmdOffset := BitVec.eq_of_toNat_eq (offset_of_regAt h4 hreg).symm
  rfl

/-- Settles O52: only a command can end in a fault, and the host's side moves on with every other input. -/
theorem everyInputIsTaken : Obligations.EveryInputIsTaken := by
  intro s x
  have hpending : ∀ {t : State}, t.hostSide = s.hostSide → t.pending = s.pending :=
    fun h => congrArg (fun side => side.2.1) h
  rw [step_offer]
  cases x with
  | resetLow => exact .inl ⟨_, rfl, rfl⟩
  | resetHigh =>
    cases hr : s.rstN
    · exact .inl ⟨releaseReset s, by simp [hostInput, hr], rfl⟩
    · exact .inl ⟨s, by simp [hostInput, hr], rfl⟩
  | read a width =>
    refine .inl ⟨_, rfl, ?_⟩
    split
    · rcases busRead_cases s a width with ⟨r, x, n, -, h, -⟩ | ⟨-, h⟩ <;> rw [h] <;> rfl
    · rfl
  | write a width v =>
    cases hr : s.rstN with
    | false => exact .inl ⟨s, by simp [hostInput, hr], rfl⟩
    | true =>
      rw [← step_offer, step_write hr]
      rcases busWrite_cases s a width v with ⟨hcmd, h⟩ | ⟨r, -, -, -, h⟩ | ⟨-, h⟩ <;> rw [h]
      · rcases issue_next_or_fault v s with ⟨t, ht, hside⟩ | ⟨i, b, k, hi, hread, hno, hfault⟩
        · exact .inl ⟨t, ht, hpending hside⟩
        · exact .inr ⟨rfl, v, i, b, k, eq_cmdWrite_of_accessed hcmd v, hi, hread, hno, hfault⟩
      · exact .inl ⟨_, rfl, hpending (writeReg_hostSide s v r)⟩
      · exact .inl ⟨_, rfl, rfl⟩

end Sys2Proof.Machine
end

section
/-! Encoding and decoding (30_encoding.md): a word and its command determine each other, and which words are commands;
and what FEC_ENCODE and DEINT, the two commands whose own meaning refuses a field value (R118), do. -/

namespace Sys2Proof

/-! ## The checks of decoding -/

/-- A row is the one its header selects: no two rows share a header, and the opcode map has every row (R116). -/
theorem Opcode.ofWord_eq_some_iff (v : Word) (o : Opcode) :
    Opcode.ofWord v = some o ↔ o.header = v.extractLsb' 24 8 := by
  refine ⟨fun h => by simpa using List.find?_some h, fun h => ?_⟩
  rw [Opcode.ofWord, ← h]
  cases o <;> rfl

/-- A word decodes exactly when it passes the three checks of R114. -/
theorem decode_eq_ok_iff (v : Word) (i : Instr) : decode v = .ok i ↔
    ∃ o : Opcode, o.header = v.extractLsb' 24 8 ∧ v &&& o.reservedMask = 0 ∧ o.fields v = some i := by
  simp only [← Opcode.ofWord_eq_some_iff]
  unfold decode
  cases Opcode.ofWord v with
  | none => simp
  | some o =>
    by_cases hr : v &&& o.reservedMask = 0
    · cases hf : o.fields v <;> simp [hr, hf]
    · have hne : (v &&& o.reservedMask != 0) = true := bne_iff_ne.2 hr
      simp only [hne, if_true, reduceCtorEq, Option.some.injEq, exists_eq_left', hr, false_and]

theorem Code.ofNum_eq_some_iff (x : BitVec 4) (c : Code) : Code.ofNum x = some c ↔ c.num = x := by
  revert x
  cases c <;> decide

/-! ## From a command to its word -/

/-- The operand fields of a command's word are those of its operand bits (R112). -/
theorem extractLsb'_encode {i : Instr} {start len : Nat} (h : start + len ≤ 24) :
    (encode i).extractLsb' start len = i.operandBits.extractLsb' start len :=
  BitVec.extractLsb'_append_eq_of_add_le h

/-- The fields of a command's word are its operands, whatever their values. -/
theorem fields_encode {i : Instr} (hwf : i.wellFormed = true) : i.opcode.fields (encode i) = some i := by
  cases i with
  | nop | softReset | convStart | trellis12 | syncReset => rfl
  | fecDecode c =>
    rw [Instr.opcode, Opcode.fields, extractLsb'_encode (by decide), Instr.operandBits,
      BitVec.extractLsb'_append_eq_right, (Code.ofNum_eq_some_iff _ c).2 rfl, Option.map_some]
  | fecEncode c =>
    rw [Instr.opcode, Opcode.fields, extractLsb'_encode (by decide), Instr.operandBits,
      BitVec.extractLsb'_append_eq_right, (Code.ofNum_eq_some_iff _ c).2 rfl, Option.map_some,
      Option.filter_some_pos hwf]
  | convChainback n | convEncode n | pushSymbol n | pushSample n | deint n =>
    rw [Instr.opcode, Opcode.fields, extractLsb'_encode (by decide), Instr.operandBits,
      BitVec.extractLsb'_append_eq_right]
  | resync a => cases a <;> rfl
  | convStep s0 s1 =>
    simp only [Instr.opcode, Opcode.fields, Option.some.injEq, Instr.convStep.injEq]
    and_intros <;> rw [extractLsb'_encode (by decide), Instr.operandBits]
    · rw [BitVec.extractLsb'_append_eq_of_le (by decide), BitVec.extractLsb'_append_eq_right]
    · rw [BitVec.extractLsb'_append_eq_right]
  | pack off cnt shr =>
    simp only [Instr.opcode, Opcode.fields, Option.some.injEq, Instr.pack.injEq]
    and_intros <;> rw [extractLsb'_encode (by decide), Instr.operandBits]
    · rw [BitVec.extractLsb'_append_eq_right]
    · rw [BitVec.extractLsb'_append_eq_of_le (by decide), BitVec.extractLsb'_append_eq_of_le (by decide),
        BitVec.extractLsb'_append_eq_right]
    · rw [BitVec.extractLsb'_append_eq_of_le (by decide), BitVec.extractLsb'_append_eq_of_le (by decide),
        BitVec.extractLsb'_append_eq_of_le (by decide), BitVec.extractLsb'_append_eq_of_le (by decide),
        BitVec.extractLsb'_append_eq_right]

/-- The word of an instruction has its row's header and no reserved bit set (R111, R115). -/
theorem encodedShape (i : Instr) : Laws.EncodedShape.Statement i := by
  cases i with
  | nop => exact Laws.EncodedShape.nop
  | softReset => exact Laws.EncodedShape.softReset
  | fecDecode c => exact Laws.EncodedShape.fecDecode c
  | fecEncode c => exact Laws.EncodedShape.fecEncode c
  | convStart => exact Laws.EncodedShape.convStart
  | convStep s0 s1 => exact Laws.EncodedShape.convStep s0 s1
  | convChainback n => exact Laws.EncodedShape.convChainback n
  | convEncode n => exact Laws.EncodedShape.convEncode n
  | trellis12 => exact Laws.EncodedShape.trellis12
  | pushSymbol d => exact Laws.EncodedShape.pushSymbol d
  | pushSample v => exact Laws.EncodedShape.pushSample v
  | resync a => exact Laws.EncodedShape.resync a
  | syncReset => exact Laws.EncodedShape.syncReset
  | deint slot => exact Laws.EncodedShape.deint slot
  | pack off cnt shr => exact Laws.EncodedShape.pack off cnt shr

/-- Settles O2: the word of a command passes the three checks with the command's own fields. -/
theorem decodeOfEncode : Obligations.DecodeOfEncode := by
  intro i hwf
  obtain ⟨hheader, hreserved⟩ := encodedShape i
  exact (decode_eq_ok_iff _ i).2 ⟨i.opcode, hheader.symm, hreserved, fields_encode hwf⟩

/-! ## From a word to its command -/

/-- A format whose one field is the n lowest operand bits: the field alone is the bits under the format's mask. -/
theorem zero_append_extractLsb' {w k n : Nat} (v : BitVec w) :
    0#k ++ v.extractLsb' 0 n = v.extractLsb' 0 (k + n) &&& (0#k ++ BitVec.allOnes n) := by
  ext i hi
  by_cases h : i < n <;> simp [BitVec.getElem_append, h]

/-- A bit as a field of width 1. -/
theorem ofBool_getLsbD {w : Nat} (v : BitVec w) (i : Nat) : BitVec.ofBool (v.getLsbD i) = v.extractLsb' i 1 := by
  ext j hj
  obtain rfl : j = 0 := by omega
  simp

/-- The fields read from a word make a well-formed instruction of the row, with the word's operand bits under the row's
field mask (R112, R118). -/
theorem fields_spec {o : Opcode} {v : Word} {i : Instr} (h : o.fields v = some i) :
    i.opcode = o ∧ i.wellFormed = true ∧ i.operandBits = v.extractLsb' 0 24 &&& o.fieldMask := by
  cases o with
  | nop | softReset | convStart | trellis12 | syncReset => cases h; exact ⟨rfl, rfl, BitVec.and_zero.symm⟩
  | fecDecode =>
    obtain ⟨c, hc, rfl⟩ := Option.map_eq_some_iff.1 h
    rw [Instr.operandBits, (Code.ofNum_eq_some_iff _ _).1 hc]
    exact ⟨rfl, rfl, zero_append_extractLsb' (k := 20) v⟩
  | fecEncode =>
    obtain ⟨hfield, hwf⟩ := Option.filter_eq_some_iff.1 h
    obtain ⟨c, hc, rfl⟩ := Option.map_eq_some_iff.1 hfield
    rw [Instr.operandBits, (Code.ofNum_eq_some_iff _ _).1 hc]
    exact ⟨rfl, hwf, zero_append_extractLsb' (k := 20) v⟩
  | convChainback | convEncode => cases h; exact ⟨rfl, rfl, zero_append_extractLsb' (k := 15) v⟩
  | pushSymbol => cases h; exact ⟨rfl, rfl, zero_append_extractLsb' (k := 22) v⟩
  | pushSample => cases h; exact ⟨rfl, rfl, zero_append_extractLsb' (k := 8) v⟩
  | deint => cases h; exact ⟨rfl, rfl, zero_append_extractLsb' (k := 21) v⟩
  | resync =>
    cases h
    rw [Instr.operandBits, ofBool_getLsbD]
    exact ⟨rfl, rfl, zero_append_extractLsb' (k := 23) v⟩
  | convStep | pack =>
    cases h
    refine ⟨rfl, rfl, BitVec.eq_of_getLsbD_eq fun i hi => ?_⟩
    simp only [Instr.operandBits, Opcode.fieldMask, BitVec.getLsbD_and, BitVec.getLsbD_append]
    interval_cases i <;> simp

/-- With no reserved bit set, all operand bits of a word lie under its row's field mask (R115). -/
theorem extractLsb'_and_fieldMask {o : Opcode} {v : Word} (h : v &&& o.reservedMask = 0) :
    v.extractLsb' 0 24 &&& o.fieldMask = v.extractLsb' 0 24 := by
  apply BitVec.eq_of_getLsbD_eq
  intro i hi
  have hbit := congrArg (fun x => x.getLsbD i) h
  simp only [Opcode.reservedMask, BitVec.getLsbD_and, BitVec.getLsbD_append, BitVec.getLsbD_not, hi, if_true,
    decide_true, Bool.true_and] at hbit
  simpa [hi, -BitVec.getLsbD_eq_getElem] using hbit

/-- Settles O3: the header and the fields of a word without a reserved bit are all of its bits. -/
theorem encodeOfDecode : Obligations.EncodeOfDecode := by
  intro v i h
  obtain ⟨o, hheader, hreserved, hfields⟩ := (decode_eq_ok_iff v i).1 h
  obtain ⟨rfl, hwf, hbits⟩ := fields_spec hfields
  refine ⟨hwf, ?_⟩
  calc encode i = v.extractLsb' 24 8 ++ v.extractLsb' 0 24 := by
        rw [encode, hheader, hbits, extractLsb'_and_fieldMask hreserved]
    _ = v := BitVec.extractLsb'_append_extractLsb'

/-! ## The words of the encoding column (R126) -/

/-- A format whose one field is the n lowest operand bits: the word is the header's word with the field in its place. -/
theorem append_zero_append {a k n : Nat} (h : BitVec a) (x : BitVec n) :
    h ++ (0#k ++ x) = (h ++ 0#(k + n)) ||| x.setWidth (a + (k + n)) := by
  apply BitVec.eq_of_getLsbD_eq
  intro i hi
  simp only [BitVec.getLsbD_append, BitVec.getLsbD_or, BitVec.getLsbD_setWidth, BitVec.getLsbD_zero, hi, decide_true,
    Bool.true_and]
  by_cases hn : i < n
  · simp [hn, Nat.lt_add_left k hn]
  · simp [hn, BitVec.getLsbD_of_ge x i (Nat.le_of_not_lt hn)]

theorem encode_convStep (s0 s1 : BitVec 8) :
    encode (.convStep s0 s1) = 0x21000000 ||| (s0.setWidth 32 <<< 8) ||| s1.setWidth 32 := by
  apply BitVec.eq_of_getLsbD_eq
  intro i hi
  simp only [encode, Instr.opcode, Opcode.header, Instr.operandBits, BitVec.getLsbD_append]
  interval_cases i <;> simp

theorem encode_pack (off cnt : BitVec 7) (shr : BitVec 4) : encode (.pack off cnt shr) =
    0x51000000 ||| (shr.setWidth 32 <<< 16) ||| (cnt.setWidth 32 <<< 8) ||| off.setWidth 32 := by
  apply BitVec.eq_of_getLsbD_eq
  intro i hi
  simp only [encode, Instr.opcode, Opcode.header, Instr.operandBits, BitVec.getLsbD_append]
  interval_cases i <;> simp

theorem encode_deint (slot : BitVec 3) : encode (.deint slot) = 0x50000000 ||| slot.setWidth 32 :=
  append_zero_append (k := 21) 0x50#8 slot

/-- Settles O4: each row is its header over its fields. -/
theorem encodingTable : Obligations.EncodingTable :=
  ⟨rfl, rfl,
    fun c => append_zero_append (k := 20) 0x10#8 c.num,
    fun c => append_zero_append (k := 20) 0x11#8 c.num,
    rfl, encode_convStep,
    append_zero_append (k := 15) 0x22#8,
    append_zero_append (k := 15) 0x23#8,
    rfl,
    append_zero_append (k := 22) 0x40#8,
    append_zero_append (k := 8) 0x41#8,
    rfl, rfl, rfl, encode_deint, encode_pack⟩

/-- Settles O1: by evaluating the decoder on the eleven words. -/
theorem exampleWordsDecode : Obligations.ExampleWordsDecode := by
  unfold Obligations.ExampleWordsDecode
  decide

end Sys2Proof

namespace Sys2Proof.Machine

/-! ## The illegal words -/

/-- The reserved bits that Sys2Proof/Safety.lean lists are those of the decoder's rows. -/
theorem reservedBits_eq_map_opMap : reservedBits = opMap.map (fun o => (o.header, o.reservedMask)) := by decide

theorem exists_opcode_of_lookup_reservedBits {h : BitVec 8} {r : Word} (hl : reservedBits.lookup h = some r) :
    ∃ o : Opcode, o.header = h ∧ o.reservedMask = r := by
  obtain ⟨l₁, l₂, hsplit, -⟩ := List.lookup_eq_some_iff.1 hl
  have hmem : (h, r) ∈ reservedBits := by simp [hsplit]
  rw [reservedBits_eq_map_opMap] at hmem
  obtain ⟨o, -, ho⟩ := List.mem_map.1 hmem
  exact ⟨o, Prod.mk.inj ho⟩

/-- A CODE field below 12 selects a code, and one below 11 a code other than RS_24_12 (R117, R118). -/
theorem exists_code_of_lt {x : BitVec 4} (h : x.toNat < 12) :
    ∃ c : Code, Code.ofNum x = some c ∧ (x.toNat < 11 → (Instr.fecEncode c).wellFormed = true) := by
  revert x
  decide

/-- A word without an illegal field value has the fields of a command (R118). -/
theorem exists_fields {cfg : Cfg} {o : Opcode} {v : Word} (hheader : o.header = v.extractLsb' 24 8)
    (hlegal : illegalField cfg v = false) : ∃ i, o.fields v = some i := by
  have hlow : (v.extractLsb' 0 4).toNat = v.toNat % 16 := by simp
  cases o with
  | fecDecode =>
    have hlt : v.toNat % 16 < 12 := by simpa [illegalField, ← hheader, Opcode.header] using hlegal
    obtain ⟨c, hc, -⟩ := exists_code_of_lt (hlow ▸ hlt)
    exact ⟨.fecDecode c, by rw [Opcode.fields, hc, Option.map_some]⟩
  | fecEncode =>
    have hlt : v.toNat % 16 < 11 := by simpa [illegalField, ← hheader, Opcode.header] using hlegal
    rw [← hlow] at hlt
    obtain ⟨c, hc, hwf⟩ := exists_code_of_lt (hlt.trans (by decide))
    exact ⟨.fecEncode c, by rw [Opcode.fields, hc, Option.map_some, Option.filter_some_pos (hwf hlt)]⟩
  | nop | softReset | convStart | convStep | convChainback | convEncode | trellis12 | pushSymbol | pushSample | resync
  | syncReset | deint | pack => exact ⟨_, rfl⟩

/-- Settles O6: a word with a row, no reserved bit and no illegal field value passes the three checks of the decoder. -/
theorem legalWordExecutesItsCommand : Obligations.LegalWordExecutesItsCommand := by
  intro v s hlegal
  unfold illegalWord at hlegal
  split at hlegal
  next => cases hlegal
  next r hlookup =>
    obtain ⟨hreserved, hfield⟩ := Bool.or_eq_false_iff.1 hlegal
    obtain ⟨o, hheader, rfl⟩ := exists_opcode_of_lookup_reservedBits hlookup
    obtain ⟨i, hi⟩ := exists_fields hheader hfield
    have hdecode : decode v = .ok i := (decode_eq_ok_iff v i).2 ⟨o, hheader, bne_eq_false_iff_eq.1 hreserved, hi⟩
    exact ⟨i, hdecode, (encodeOfDecode v i hdecode).2, by rw [issue, hdecode]⟩

/-! ## FEC_ENCODE and DEINT -/

/-- Settles O29: the two cases of FEC_ENCODE, by the code. -/
theorem fecEncodeResult : Obligations.FecEncodeResult := by
  intro c s
  rcases fecEncode_cases c s with ⟨rfl, hfail⟩ | ⟨hc, hnext⟩
  · refine ⟨fun hc => absurd rfl hc, fun _ => ⟨_, exec_fecEncode fun hc => absurd rfl hc, ?_⟩⟩
    rw [hfail]
    exact onlyErrorRecord_recordError s .illegal _
  · refine ⟨fun _ hval => ⟨_, exec_fecEncode fun _ => hval, fun i hi => ?_, ?_⟩, fun h => absurd h hc⟩
    · rw [hnext]
      simp [encodeUnit, hi, -BitVec.getLsbD_eq_getElem]
    · rw [hnext]
      rfl

theorem slotPresent_eq_true_iff (cfg : Cfg) (slot : Nat) : cfg.slotPresent slot = true ↔ cfg.permOf slot ≠ [] := by
  simp [Cfg.slotPresent]

theorem getD_gather (perm : List Nat) (din tin : Vector Dibit 128) {i : Nat} (h : i < 128) :
    (gather perm din tin).getD i 0 = if i < perm.length then din.getD (perm.getD i 0) 0 else tin.getD i 0 := by
  rw [gather, getD_ofFn, dif_pos h]

/-- Settles O49: the two cases of DEINT, by the presence of the slot. -/
theorem deintGathers : Obligations.DeintGathers := by
  intro s slot perm
  have hpresent : s.cfg.slotPresent slot.toNat = true ↔ perm ≠ [] := slotPresent_eq_true_iff _ _
  rcases deint_cases slot s with ⟨habsent, hfail⟩ | ⟨hslot, hnext⟩
  · have hperm : perm = [] := by simpa [habsent] using hpresent
    have hnone : ∀ k ∈ perm, s.unwritten.din.getD k 0 = 0 := by simp [hperm]
    refine ⟨fun h => absurd hperm h, fun _ => ⟨_, exec_deint hnone, ?_⟩⟩
    rw [hfail, encode_deint]
    exact onlyErrorRecord_recordError s .illegal _
  · refine ⟨fun _ hval => ⟨_, exec_deint hval, ?_, fun i hi => ?_⟩, fun h => absurd h (hpresent.1 hslot)⟩
    · rw [hnext]
      simp only [State.setTrl, State.setUnwritten]
    · rw [hnext]
      exact ⟨getD_gather _ _ _ hi, getD_clearFirst _ _ _⟩

end Sys2Proof.Machine
end

section
/-! The block FEC unit (40_block_fec.md): the code of a parity matrix, its syndrome table and its distance, and what
FEC_DECODE answers. -/

namespace Sys2Proof.Machine

/-! ## The code of a parity matrix -/

/-- RS_24_12 has no rows, so rows of the configured shape belong to another code (40_block_fec.md R140). -/
theorem ne_rs2412_of_rowsOk {cfg : Cfg} {c : Code} (h : cfg.rowsOk c = true) : c ≠ .rs2412 := by
  rintro rfl
  have hrows : cfg.rows .rs2412 = [] := getD_of_ge cfg.parityRows [] (Nat.le_refl 11)
  simp [Cfg.rowsOk, hrows, Code.k] at h

theorem toNat_lt_of_mem_rows {cfg : Cfg} {c : Code} (h : cfg.rowsOk c = true) {r : BitVec 64} (hr : r ∈ cfg.rows c) :
    r.toNat < 2 ^ (c.n - c.k) :=
  of_decide_eq_true (List.all_eq_true.1 (Bool.and_eq_true_iff.1 h).2 r hr)

/-- The bits of encode_c(U): the parity word below n − k, U from there to n, 0 above (40_block_fec.md R141). -/
theorem getLsbD_encodeWord {cfg : Cfg} {c : Code} (h : cfg.rowsOk c = true) (u : Vec) (j : Nat) :
    (cfg.encodeWord c u).getLsbD j =
      if j < c.n - c.k then (parity (cfg.rows c) c.k u).getLsbD j
      else decide (j < c.n) && u.getLsbD (j - (c.n - c.k)) := by
  obtain ⟨hkn, hn, -, -⟩ := Code.dims c
  rw [Cfg.encodeWord, BitVec.getLsbD_or, BitVec.getLsbD_shiftLeft, getLsbD_slice, BitVec.getLsbD_setWidth]
  by_cases hj : j < c.n - c.k
  · simp [hj, show j < 256 by omega]
  · rw [if_neg hj, parity_high _ _ _ u (fun _ => toNat_lt_of_mem_rows h) j (Nat.le_of_not_lt hj)]
    by_cases hjn : j < c.n
    · simp [hj, hjn, show j < 256 by omega, show j - (c.n - c.k) < 256 by omega, show j - (c.n - c.k) < c.k by omega,
        -BitVec.getLsbD_eq_getElem]
    · simp [hjn, show ¬ j - (c.n - c.k) < c.k by omega]

theorem getLsbD_encodeWord_info {cfg : Cfg} {c : Code} (h : cfg.rowsOk c = true) (u : Vec) {i : Nat} (hi : i < c.k) :
    (cfg.encodeWord c u).getLsbD (c.n - c.k + i) = u.getLsbD i := by
  have hkn := (Code.dims c).1
  rw [getLsbD_encodeWord h, if_neg (by omega), decide_eq_true (by omega), Bool.true_and, Nat.add_sub_cancel_left]

theorem getLsbD_encodeWord_of_ge {cfg : Cfg} {c : Code} (h : cfg.rowsOk c = true) (u : Vec) {i : Nat} (hi : c.n ≤ i) :
    (cfg.encodeWord c u).getLsbD i = false := by
  rw [getLsbD_encodeWord h, if_neg (by omega), decide_eq_false (by omega), Bool.false_and]

/-- Settles O25: the three ranges of bits of an encoded word. -/
theorem encodedWordIsSystematic : Obligations.EncodedWordIsSystematic := fun _ _ _ h u =>
  ⟨fun _ hi => getLsbD_encodeWord_info h u hi, fun _ hi => getLsbD_encodeWord_of_ge h u hi,
    fun _ hj => by rw [getLsbD_encodeWord h, if_pos hj, getLsbD_parity]⟩

/-- A slice depends on its own bits only. -/
theorem slice_congr {w m lo len : Nat} {v x : BitVec w} (h : ∀ i, i < len → v.getLsbD (lo + i) = x.getLsbD (lo + i)) :
    slice m v lo len = slice m x lo len := by
  apply BitVec.eq_of_getLsbD_eq
  intro i _
  rw [getLsbD_slice, getLsbD_slice]
  by_cases hi : i < len
  · rw [h i hi]
  · simp [hi]

theorem slice_zero_congr {w m len : Nat} {v x : BitVec w} (h : ∀ i, i < len → v.getLsbD i = x.getLsbD i) :
    slice m v 0 len = slice m x 0 len :=
  slice_congr fun i hi => by rw [Nat.zero_add, h i hi]

/-- encode_c reads U[k−1:0] only (40_block_fec.md R141). -/
theorem encodeWord_congr (cfg : Cfg) {c : Code} {u v : Vec} (h : ∀ i, i < c.k → u.getLsbD i = v.getLsbD i) :
    cfg.encodeWord c u = cfg.encodeWord c v := by
  rw [Cfg.encodeWord, Cfg.encodeWord, parity_congr _ _ u v h, slice_zero_congr h]

theorem slice_xor {w : Nat} (m : Nat) (v x : BitVec w) (lo len : Nat) :
    slice m (v ^^^ x) lo len = slice m v lo len ^^^ slice m x lo len := by
  apply BitVec.eq_of_getLsbD_eq
  intro i hi
  simp only [getLsbD_slice, BitVec.getLsbD_xor, Bool.and_xor_distrib_left]

/-- Encoding is linear. -/
theorem encodeWord_xor {cfg : Cfg} {c : Code} (h : cfg.rowsOk c = true) (u v : Vec) :
    cfg.encodeWord c (u ^^^ v) = cfg.encodeWord c u ^^^ cfg.encodeWord c v := by
  apply BitVec.eq_of_getLsbD_eq
  intro j _
  simp only [BitVec.getLsbD_xor, getLsbD_encodeWord h, parity_xor]
  split
  · rfl
  · rw [Bool.and_xor_distrib_left]

theorem encodeWord_zero {cfg : Cfg} {c : Code} (h : cfg.rowsOk c = true) : cfg.encodeWord c 0 = 0 := by
  have hxor := encodeWord_xor h 0 0
  rwa [BitVec.xor_self, BitVec.xor_self] at hxor

/-- The syndrome is linear (40_block_fec.md R142). -/
theorem syndrome_xor (cfg : Cfg) (c : Code) (v x : Vec) :
    cfg.syndrome c (v ^^^ x) = cfg.syndrome c v ^^^ cfg.syndrome c x := by
  simp only [Cfg.syndrome, slice_xor, parity_xor]
  ac_rfl

theorem syndrome_zero (cfg : Cfg) (c : Code) : cfg.syndrome c 0 = 0 := by
  have hxor := syndrome_xor cfg c 0 0
  rwa [BitVec.xor_self, BitVec.xor_self] at hxor

/-- The bits of the syndrome: those of CW XOR the parity word of its information bits (40_block_fec.md R142). -/
theorem getLsbD_syndrome {cfg : Cfg} {c : Code} (h : cfg.rowsOk c = true) (cw : Vec) (j : Nat) :
    (cfg.syndrome c cw).getLsbD j =
      (decide (j < c.n - c.k) &&
        (cw.getLsbD j ^^ (parity (cfg.rows c) c.k (slice 256 cw (c.n - c.k) c.k)).getLsbD j)) := by
  have hle := ((Code.dims c).2.2.2 (ne_rs2412_of_rowsOk h)).1
  rw [Cfg.syndrome, BitVec.getLsbD_xor, getLsbD_slice]
  by_cases hj : j < c.n - c.k
  · simp [hj, show j < 64 by omega]
  · rw [parity_high _ _ _ _ (fun _ => toNat_lt_of_mem_rows h) j (Nat.le_of_not_lt hj)]
    simp [hj]

theorem getLsbD_codeword (c : Code) (v : Vec) (i : Nat) :
    (codeword c v).getLsbD i = (decide (i < c.n) && v.getLsbD i) := by
  obtain ⟨-, hn, -, -⟩ := Code.dims c
  by_cases hi : i < c.n
  · simp [codeword, hi, show i < 256 by omega, -BitVec.getLsbD_eq_getElem]
  · simp [codeword, hi]

/-- The codeword operand is the n low bits. -/
theorem codeword_congr {c : Code} {v x : Vec} (h : ∀ i, i < c.n → v.getLsbD i = x.getLsbD i) :
    codeword c v = codeword c x :=
  slice_zero_congr h

theorem codeword_eq_self {c : Code} {v : Vec} (h : v.toNat < 2 ^ c.n) : codeword c v = v := by
  apply BitVec.eq_of_getLsbD_eq
  intro i _
  rw [getLsbD_codeword]
  by_cases hi : i < c.n
  · simp [hi]
  · rw [getLsbD_of_toNat_lt v c.n i h (Nat.le_of_not_lt hi), Bool.and_false]

theorem toNat_codeword_lt (c : Code) (v : Vec) : (codeword c v).toNat < 2 ^ c.n :=
  Nat.lt_pow_two_of_testBit _ fun i hi => by
    rw [← BitVec.getLsbD, getLsbD_codeword, decide_eq_false (Nat.not_lt.2 hi), Bool.false_and]

/-- The codewords are the n-bit words of syndrome 0 (40_block_fec.md R142): U is the information part. -/
theorem codeword_eq_encodeWord {cfg : Cfg} {c : Code} (h : cfg.rowsOk c = true) {cw : Vec}
    (hs : cfg.syndrome c cw = 0) : codeword c cw = cfg.encodeWord c (slice 256 cw (c.n - c.k) c.k) := by
  obtain ⟨hkn, hn, -, -⟩ := Code.dims c
  apply BitVec.eq_of_getLsbD_eq
  intro j _
  have hbit := getLsbD_syndrome h cw j
  rw [hs, BitVec.ofNat_eq_ofNat, BitVec.getLsbD_zero] at hbit
  rw [getLsbD_encodeWord h, getLsbD_codeword]
  by_cases hj : j < c.n - c.k
  · rw [decide_eq_true hj, Bool.true_and, eq_comm, bne_eq_false_iff_eq] at hbit
    rw [if_pos hj, decide_eq_true (by omega), Bool.true_and, hbit]
  · rw [if_neg hj, getLsbD_slice]
    by_cases hjn : j < c.n
    · simp [hjn, show j - (c.n - c.k) < 256 by omega, show j - (c.n - c.k) < c.k by omega,
        show c.n - c.k + (j - (c.n - c.k)) = j by omega]
    · simp [hjn]

theorem syndrome_encodeWord {cfg : Cfg} {c : Code} (h : cfg.rowsOk c = true) (u : Vec) :
    cfg.syndrome c (cfg.encodeWord c u) = 0 := by
  obtain ⟨hkn, hn, -, -⟩ := Code.dims c
  have hinfo : ∀ i, i < c.k → (slice 256 (cfg.encodeWord c u) (c.n - c.k) c.k).getLsbD i = u.getLsbD i := by
    intro i hi
    rw [getLsbD_slice, getLsbD_encodeWord_info h u hi]
    simp [hi, show i < 256 by omega]
  apply BitVec.eq_of_getLsbD_eq
  intro j _
  rw [getLsbD_syndrome h, parity_congr _ _ _ u hinfo, getLsbD_encodeWord h]
  by_cases hj : j < c.n - c.k <;> simp [hj]

theorem syndrome_codeword (cfg : Cfg) (c : Code) (cw : Vec) : cfg.syndrome c (codeword c cw) = cfg.syndrome c cw := by
  have hkn := (Code.dims c).1
  have hslice : ∀ m lo len, lo + len ≤ c.n → slice m (codeword c cw) lo len = slice m cw lo len := by
    intro m lo len hle
    refine slice_congr fun i hi => ?_
    rw [getLsbD_codeword, decide_eq_true (by omega), Bool.true_and]
  rw [Cfg.syndrome, hslice _ _ _ (by omega), hslice _ _ _ (by omega), Cfg.syndrome]

/-- Settles O24: the bits of the syndrome, and its linearity. -/
theorem syndromeIsTheParityCheck : Obligations.SyndromeIsTheParityCheck := by
  intro cfg c _ h cw e
  obtain ⟨hkn, hn, -, -⟩ := Code.dims c
  refine ⟨fun j hj => ?_, fun j hj => ?_, ⟨fun hs => ⟨_, codeword_eq_encodeWord h hs⟩, ?_⟩, syndrome_xor cfg c cw e⟩
  · rw [getLsbD_syndrome h, decide_eq_true hj, Bool.true_and, getLsbD_parity]
    congr 3
    rw [List.countP_congr fun i hi => ?_]
    have hi := List.mem_range.1 hi
    rw [getLsbD_slice, show c.n - c.k + (c.k - 1 - i) = c.n - 1 - i by omega]
    simp [show c.k - 1 - i < c.k by omega, show c.k - 1 - i < 256 by omega]
  · rw [getLsbD_syndrome h, decide_eq_false (Nat.not_lt.2 hj), Bool.false_and]
  · rintro ⟨u, hu⟩
    rw [← syndrome_codeword, hu, syndrome_encodeWord h]

/-! ## Weights -/

/-- The weight of a word is the number of indices of its set bits. -/
theorem popcount_eq_card {w : Nat} (v : BitVec w) :
    popcount v = ((Finset.range w).filter (fun i => v.getLsbD i = true)).card := by
  rw [popcount, onesBelow_eq, ← List.toFinset_card_of_nodup (List.nodup_range.filter _)]
  congr 1
  ext i
  simp [BitVec.getLsbD]

theorem popcount_xor_le {w : Nat} (v x : BitVec w) : popcount (v ^^^ x) ≤ popcount v + popcount x := by
  simp only [popcount_eq_card]
  refine (Finset.card_le_card fun i hi => ?_).trans (Finset.card_union_le _ _)
  obtain ⟨hw, hbit⟩ := Finset.mem_filter.1 hi
  rw [BitVec.getLsbD_xor] at hbit
  rw [Finset.mem_union, Finset.mem_filter, Finset.mem_filter]
  cases hv : v.getLsbD i with
  | true => exact .inl ⟨hw, rfl⟩
  | false => exact .inr ⟨hw, by rwa [hv, Bool.false_xor] at hbit⟩

theorem popcount_zero : popcount (0 : Vec) = 0 := Nat.le_zero.1 (popcount_errorWord_le [])

/-- A nonzero word has a set bit. -/
theorem popcount_pos {w : Nat} {v : BitVec w} (h : v ≠ 0) : 1 ≤ popcount v := by
  rw [popcount_eq_card, Nat.one_le_iff_ne_zero, Finset.card_ne_zero]
  by_contra hempty
  refine h (BitVec.eq_of_getLsbD_eq fun i hi => ?_)
  rw [Finset.not_nonempty_iff_eq_empty, Finset.filter_eq_empty_iff] at hempty
  simpa using hempty (Finset.mem_range.2 hi)

/-- The indices of the set bits of an n-bit word, ascending. -/
def setBits (n : Nat) (v : Vec) : List Nat := (List.range n).filter v.getLsbD

theorem setBits_sublist (n : Nat) (v : Vec) : (setBits n v).Sublist (List.range n) := List.filter_sublist

theorem length_setBits {n : Nat} {v : Vec} (h : v.toNat < 2 ^ n) (hn : n ≤ 256) :
    (setBits n v).length = popcount v := by
  rw [popcount, onesBelow_of_lt n 256 _ h hn, onesBelow_eq]
  rfl

theorem errorWord_setBits {n : Nat} {v : Vec} (h : v.toNat < 2 ^ n) : errorWord (setBits n v) = v := by
  apply BitVec.eq_of_getLsbD_eq
  intro i hi
  rw [getLsbD_errorWord, decide_eq_true hi, Bool.true_and]
  by_cases hin : i < n
  · simp [setBits, hin]
  · rw [getLsbD_of_toNat_lt v n i h (Nat.le_of_not_lt hin)]
    simp [setBits, hin]

/-- An error word with its indices below n is an n-bit word. -/
theorem toNat_errorWord_lt {n : Nat} {bs : List Nat} (h : bs.Sublist (List.range n)) :
    (errorWord bs).toNat < 2 ^ n := by
  refine Nat.lt_pow_two_of_testBit _ fun i hi => ?_
  rw [← BitVec.getLsbD, getLsbD_errorWord,
    decide_eq_false fun hmem => Nat.not_lt.2 hi (List.mem_range.1 (h.subset hmem)), Bool.and_false]

/-- The weight of an error word is the number of its indices. -/
theorem popcount_errorWord {n : Nat} {bs : List Nat} (h : bs.Sublist (List.range n)) (hn : n ≤ 256) :
    popcount (errorWord bs) = bs.length := by
  have hnodup : bs.Nodup := h.nodup List.nodup_range
  rw [popcount_eq_card, ← List.toFinset_card_of_nodup hnodup]
  congr 1
  ext i
  have hlt : i ∈ bs → i < 256 := fun hi => (List.mem_range.1 (h.subset hi)).trans_le hn
  simp only [Finset.mem_filter, Finset.mem_range, getLsbD_errorWord, List.mem_toFinset, Bool.and_eq_true,
    decide_eq_true_eq]
  tauto

/-! ## The syndrome table -/

/-- One step of building the table keeps an entry, or replaces it by one that is not heavier (40_block_fec.md R143). -/
theorem tableStep_some (cfg : Cfg) (c : Code) (s : BitVec 64) (e : Vec) (bs : List Nat) :
    ∃ e', tableStep cfg c s (some e) bs = some e' ∧ popcount e' ≤ popcount e := by
  have hbs := popcount_errorWord_le bs
  by_cases hs : (cfg.syndrome c (errorWord bs) == s) = true
  · by_cases hw : popcount e < bs.length
    · exact ⟨e, by simp [tableStep, hs, hw], le_rfl⟩
    · exact ⟨errorWord bs, by simp [tableStep, hs, hw], by omega⟩
  · exact ⟨e, by simp [tableStep, hs], le_rfl⟩

/-- After a pattern of this syndrome there is an entry, not heavier than the pattern. -/
theorem tableStep_of_syndrome {cfg : Cfg} {c : Code} {s : BitVec 64} {bs : List Nat}
    (hs : cfg.syndrome c (errorWord bs) = s) (entry : Option Vec) :
    ∃ e, tableStep cfg c s entry bs = some e ∧ popcount e ≤ bs.length := by
  have hbs := popcount_errorWord_le bs
  cases entry with
  | none => exact ⟨errorWord bs, by simp [tableStep, hs], hbs⟩
  | some e =>
    by_cases hw : popcount e < bs.length
    · exact ⟨e, by simp [tableStep, hs, hw], hw.le⟩
    · exact ⟨errorWord bs, by simp [tableStep, hs, hw], hbs⟩

theorem foldl_tableStep_some (cfg : Cfg) (c : Code) (s : BitVec 64) (l : List (List Nat)) (e : Vec) :
    ∃ e', l.foldl (tableStep cfg c s) (some e) = some e' ∧ popcount e' ≤ popcount e := by
  induction l generalizing e with
  | nil => exact ⟨e, rfl, le_rfl⟩
  | cons bs l ih =>
    obtain ⟨e₁, h₁, hle₁⟩ := tableStep_some cfg c s e bs
    obtain ⟨e₂, h₂, hle₂⟩ := ih e₁
    exact ⟨e₂, by rw [List.foldl_cons, h₁, h₂], hle₂.trans hle₁⟩

/-- The table built from patterns with one of this syndrome has an entry, not heavier than that pattern. -/
theorem foldl_tableStep_of_mem {cfg : Cfg} {c : Code} {s : BitVec 64} {bs : List Nat} {l : List (List Nat)}
    (hmem : bs ∈ l) (hs : cfg.syndrome c (errorWord bs) = s) (entry : Option Vec) :
    ∃ e, l.foldl (tableStep cfg c s) entry = some e ∧ popcount e ≤ bs.length := by
  induction l generalizing entry with
  | nil => cases hmem
  | cons a l ih =>
    rcases List.mem_cons.1 hmem with rfl | hmem
    · obtain ⟨e₁, h₁, hle₁⟩ := tableStep_of_syndrome hs entry
      obtain ⟨e₂, h₂, hle₂⟩ := foldl_tableStep_some cfg c s l e₁
      exact ⟨e₂, by rw [List.foldl_cons, h₁, h₂], hle₂.trans hle₁⟩
    · exact ih hmem _

/-- The nonzero syndrome of an n-bit error word of weight 1 to t_c has an entry, not heavier than the word. -/
theorem exists_syndromeTable_le {cfg : Cfg} {c : Code} {e : Vec} (hlt : e.toNat < 2 ^ c.n) (he : e ≠ 0)
    (hdepth : popcount e ≤ cfg.depth c) (hs : cfg.syndrome c e ≠ 0) :
    ∃ e', syndromeTable cfg c (cfg.syndrome c e) = some e' ∧ popcount e' ≤ popcount e := by
  have hlen := length_setBits hlt ((Code.dims c).2.1.trans (by decide))
  have hmem : setBits c.n e ∈ errorPatterns c.n (cfg.depth c) :=
    mem_errorPatterns.2 ⟨setBits_sublist c.n e, hlen ▸ popcount_pos he, hlen ▸ hdepth⟩
  rw [syndromeTable, if_neg (by simpa using hs), ← hlen]
  exact foldl_tableStep_of_mem hmem (by rw [errorWord_setBits hlt]) none

/-- A table entry is an n-bit error word of weight 1 to t_c with that syndrome (40_block_fec.md R143). -/
theorem syndromeTable_entry {cfg : Cfg} {c : Code} {s : BitVec 64} {e : Vec} (h : syndromeTable cfg c s = some e) :
    s ≠ 0 ∧ cfg.syndrome c e = s ∧ e.toNat < 2 ^ c.n ∧ 1 ≤ popcount e ∧ popcount e ≤ cfg.depth c := by
  obtain ⟨hs0, bs, hsub, hpos, hdepth, rfl, hs⟩ := syndromeTable_spec h
  rw [popcount_errorWord hsub ((Code.dims c).2.1.trans (by decide))]
  exact ⟨hs0, hs, toNat_errorWord_lt hsub, hpos, hdepth⟩

/-- Settles O26: a lighter word of the same syndrome would be a pattern, and no entry is heavier than a pattern. -/
theorem syndromeTableHoldsLeastWeight : Obligations.SyndromeTableHoldsLeastWeight := by
  intro cfg c s _
  refine ⟨fun e h => ?_, fun e hlt he hdepth hs hs0 => ?_⟩
  · obtain ⟨hs0, hs, hlt, hpos, hdepth⟩ := syndromeTable_entry h
    refine ⟨hs, hlt, hpos, hdepth, fun e' hlt' he' hs' => ?_⟩
    by_cases hdepth' : popcount e' ≤ cfg.depth c
    · obtain ⟨e₁, h₁, hle⟩ := exists_syndromeTable_le hlt' he' hdepth' (hs'.trans_ne hs0)
      rw [hs', h, Option.some.injEq] at h₁
      exact h₁ ▸ hle
    · omega
  · obtain ⟨e₁, h₁, -⟩ := exists_syndromeTable_le hlt he hdepth (hs.trans_ne hs0)
    rw [← hs, h₁, Option.isSome_some]

/-! ## What FEC_DECODE and FEC_ENCODE answer -/

theorem fecDecode_of_hasTable {c : Code} (hc : c.hasTable = true) (s : State) :
    fecDecode c s =
      (s.setFec (tableDecode s.cfg c s.fec)).markFec.signalIf (!(tableDecode s.cfg c s.fec).fecRes.ok) .fecFail :=
  if_pos hc

theorem fecDecode_of_not_hasTable {c : Code} (hc : c.hasTable = false) (s : State) :
    fecDecode c s = (s.setFec (stubDecode c (Config.drawSyn s.draws) s.fec)).markFec.advanceDraws :=
  if_neg (by rw [hc]; exact Bool.false_ne_true)

theorem fecDecode_fec_of_hasTable {c : Code} (hc : c.hasTable = true) (s : State) :
    (fecDecode c s).fec = tableDecode s.cfg c s.fec := by
  rw [fecDecode_of_hasTable hc, State.signalIf_fec, State.markFec_fec, State.setFec_fec]

theorem fecDecode_fec_of_not_hasTable {c : Code} (hc : c.hasTable = false) (s : State) :
    (fecDecode c s).fec = stubDecode c (Config.drawSyn s.draws) s.fec := by
  rw [fecDecode_of_not_hasTable hc, State.advanceDraws_fec, State.markFec_fec, State.setFec_fec]

theorem fecEncode_of_ne {c : Code} (hc : c ≠ .rs2412) (s : State) :
    fecEncode c s = (s.setFec (encodeUnit s.cfg c s.fec)).markFec :=
  ((fecEncode_cases c s).resolve_left fun h => hc h.1).2

theorem ne_rs2412_of_hasTable {c : Code} (hc : c.hasTable = true) : c ≠ .rs2412 := by
  rintro rfl; cases hc

/-- The bits of INFO: the top k bits of the codeword, zero-extended (10_state.md R42). -/
theorem getLsbD_infoOf (c : Code) (cw : Vec) {i : Nat} (hi : i < 128) :
    (infoOf c cw).getLsbD i = (decide (i < c.k) && cw.getLsbD (c.n - c.k + i)) := by
  rw [infoOf, getLsbD_slice, decide_eq_true hi, Bool.true_and]

theorem correction_zero (cfg : Cfg) (c : Code) : correction cfg c 0 = some 0 := rfl

theorem correction_of_ne_zero {s : BitVec 64} (hs : s ≠ 0) (cfg : Cfg) (c : Code) :
    correction cfg c s = syndromeTable cfg c s := if_neg (by simpa using hs)

/-- The correction, case by case: nothing to flip, the table's entry, or none (40_block_fec.md R145, R146). -/
theorem correction_cases (cfg : Cfg) (c : Code) (s : BitVec 64) :
    (s = 0 ∧ correction cfg c s = some 0) ∨
    (s ≠ 0 ∧ ∃ e, syndromeTable cfg c s = some e ∧ correction cfg c s = some e) ∨
    (s ≠ 0 ∧ syndromeTable cfg c s = none ∧ correction cfg c s = none) := by
  by_cases hs : s = 0
  · exact .inl ⟨hs, hs ▸ rfl⟩
  · rw [correction_of_ne_zero hs]
    cases syndromeTable cfg c s with
    | none => exact .inr (.inr ⟨hs, rfl, rfl⟩)
    | some e => exact .inr (.inl ⟨hs, e, rfl, rfl⟩)

theorem tableDecode_ok (cfg : Cfg) (c : Code) (u : FecUnit) :
    (tableDecode cfg c u).fecRes.ok = (correction cfg c (cfg.syndrome c (codeword c u.opd))).isSome := rfl

theorem tableDecode_res (cfg : Cfg) (c : Code) (u : FecUnit) : (tableDecode cfg c u).res =
    codeword c u.opd ^^^ (correction cfg c (cfg.syndrome c (codeword c u.opd))).getD 0 := rfl

/-- Settles O27: the three cases of the correction, and the frame by the event. -/
theorem fecDecodeOfTableCode : Obligations.FecDecodeOfTableCode := by
  intro c s hc hval
  let e := correction s.cfg c (s.cfg.syndrome c (codeword c s.fec.opd))
  refine ⟨fecDecode c s, e.getD 0, e.isSome, exec_fecDecode hval, ⟨?_, ?_⟩, ?_⟩
  · rcases correction_cases s.cfg c (s.cfg.syndrome c (codeword c s.fec.opd)) with
      ⟨hs, he⟩ | ⟨hs, e₁, htab, he⟩ | ⟨hs, htab, he⟩ <;> simp only [e, he]
    · exact .inl ⟨hs, rfl, rfl⟩
    · exact .inr (.inl ⟨hs, htab, rfl⟩)
    · exact .inr (.inr ⟨hs, htab, rfl, rfl⟩)
  · rw [fecDecode_fec_of_hasTable hc]
    refine ⟨rfl, rfl, fun i hi => getLsbD_infoOf c _ hi, ?_⟩
    simp only [tableDecode, e, beq_eq_decide]
  · have hok : (tableDecode s.cfg c s.fec).fecRes.ok = e.isSome := tableDecode_ok _ _ _
    rw [fecDecode_fec_of_hasTable hc, fecDecode_of_hasTable hc, hok]
    cases e <;> rfl

/-- Settles O28: the codeword and its information part, bit by bit; the frame is that of the operations. -/
theorem fecDecodeOfStub : Obligations.FecDecodeOfStub := by
  intro c s hstub hval
  have hc : c.hasTable = false := by rcases hstub with rfl | rfl <;> rfl
  have hfec := fecDecode_fec_of_not_hasTable hc s
  refine ⟨fecDecode c s, exec_fecDecode hval, fun i _ => ?_, fun i hi => ?_, ?_⟩
  · rw [hfec]
    exact getLsbD_codeword c _ i
  · have hkn := (Code.dims c).1
    rw [hfec]
    refine (getLsbD_infoOf c _ hi).trans ?_
    rw [getLsbD_codeword]
    by_cases hik : i < c.k
    · rw [decide_eq_true (show c.n - c.k + i < c.n by omega), Bool.true_and]
    · simp [hik]
  · rw [hfec, fecDecode_of_not_hasTable hc]
    rfl

/-- FEC_DECODE of a word of syndrome 0 flips nothing (40_block_fec.md R145). -/
theorem tableDecode_of_syndrome_zero {cfg : Cfg} {c : Code} {u : FecUnit} (hs : cfg.syndrome c u.opd = 0) :
    (tableDecode cfg c u).fecRes.ok = true ∧ (tableDecode cfg c u).fecRes.nflip = 0 ∧
      (tableDecode cfg c u).res = codeword c u.opd ∧ (tableDecode cfg c u).info = infoOf c (codeword c u.opd) := by
  have hflip : codeword c u.opd ^^^ 0 = codeword c u.opd := BitVec.xor_zero
  simp only [tableDecode, syndrome_codeword, hs, correction_zero, Option.getD_some, Option.isSome_some, popcount_zero,
    hflip]
  exact ⟨trivial, rfl, trivial, trivial⟩

theorem toNat_encodeWord_lt {cfg : Cfg} {c : Code} (h : cfg.rowsOk c = true) (u : Vec) :
    (cfg.encodeWord c u).toNat < 2 ^ c.n :=
  Nat.lt_pow_two_of_testBit _ fun _ hi => getLsbD_encodeWord_of_ge h u hi

/-- Settles O30: an encoded word has syndrome 0, and its top k bits are U. -/
theorem decodeOfEncodedWord : Obligations.DecodeOfEncodedWord := by
  intro c s h hc hval
  have hcode : codeword c (s.cfg.encodeWord c s.fec.opd) = s.cfg.encodeWord c s.fec.opd :=
    codeword_eq_self (toNat_encodeWord_lt h _)
  have hnext : fecEncode c s = (s.setFec (encodeUnit s.cfg c s.fec)).markFec :=
    fecEncode_of_ne (ne_rs2412_of_rowsOk h) s
  refine ⟨_, _, (exec_fecEncode fun _ => hval).trans (congrArg _ hnext),
    exec_fecDecode fun _ _ => BitVec.getLsbD_zero, ?_⟩
  rw [fecDecode_fec_of_hasTable hc]
  obtain ⟨hok, hnflip, hres, hinfo⟩ := tableDecode_of_syndrome_zero (u := { encodeUnit s.cfg c s.fec with
    opd := s.cfg.encodeWord c s.fec.opd }) (syndrome_encodeWord h s.fec.opd)
  refine ⟨hok, hnflip, hres.trans hcode, fun i hi => ?_⟩
  refine (congrArg (·.getLsbD i) hinfo).trans ((getLsbD_infoOf c _ hi).trans ?_)
  by_cases hik : i < c.k
  · rw [hcode, getLsbD_encodeWord_info h _ hik]
  · simp [hik]

/-- Settles O33: both commands read OPD through the codeword, the encoded word and the information word only. -/
theorem fecOutcomeOnlyOfOperand : Obligations.FecOutcomeOnlyOfOperand := by
  intro c s₁ s₂ t₁ t₂ hcfg
  refine ⟨fun hopd h₁ h₂ => ?_, fun hc hopd h₁ h₂ => ?_⟩
  · have hcw := codeword_congr hopd
    obtain rfl := effect_of_exec_eq_next h₁
    obtain rfl := effect_of_exec_eq_next h₂
    cases hc : c.hasTable with
    | true => simp [effect, fecDecode_fec_of_hasTable hc, tableDecode, hcfg, hcw]
    | false => simp [effect, fecDecode_fec_of_not_hasTable hc, stubDecode, hcw]
  · have hword := encodeWord_congr s₂.cfg hopd
    have hinfo : slice 128 s₁.fec.opd 0 c.k = slice 128 s₂.fec.opd 0 c.k := slice_zero_congr hopd
    obtain rfl := effect_of_exec_eq_next h₁
    obtain rfl := effect_of_exec_eq_next h₂
    simp [effect, fecEncode_of_ne hc, encodeUnit, hcfg, hword, hinfo]

/-! ## The distance of a code -/

/-- The parity word of a single information bit is its row. -/
theorem parity_twoPow (rows : List (BitVec 64)) {k i : Nat} (hk : k ≤ 256) (hi : i < k) :
    parity rows k (BitVec.twoPow 256 (k - 1 - i)) = rows.getD i 0 := by
  apply BitVec.eq_of_getLsbD_eq
  intro j _
  have hcount : (List.range k).countP (fun i' =>
      (BitVec.twoPow 256 (k - 1 - i)).getLsbD (k - 1 - i') && (rows.getD i' 0).getLsbD j) =
      (List.range k).countP (fun i' => i' == i && (rows.getD i 0).getLsbD j) := by
    refine List.countP_congr fun i' hi' => ?_
    have hi' := List.mem_range.1 hi'
    rw [BitVec.getLsbD_twoPow, decide_eq_true (show k - 1 - i < 256 by omega), Bool.true_and]
    by_cases heq : i' = i
    · simp [heq]
    · simp [heq, show ¬ k - 1 - i = k - 1 - i' by omega]
  rw [getLsbD_parity, hcount]
  cases (rows.getD i 0).getLsbD j with
  | false => simp
  | true =>
    have hone : (List.range k).countP (· == i) = 1 := List.count_eq_one_of_mem List.nodup_range (List.mem_range.2 hi)
    simp [hone]

/-- Row i of the generator matrix encodes the information word whose only 1 is u_i. -/
theorem encodeWord_twoPow {cfg : Cfg} {c : Code} (h : cfg.rowsOk c = true) {i : Nat} (hi : i < c.k) :
    cfg.encodeWord c (BitVec.twoPow 256 (c.k - 1 - i)) = cfg.generatorRow c i := by
  obtain ⟨hkn, hn, -, -⟩ := Code.dims c
  apply BitVec.eq_of_getLsbD_eq
  intro j hj
  rw [getLsbD_encodeWord h, Cfg.generatorRow, ← parity_twoPow (cfg.rows c) (show c.k ≤ 256 by omega) hi,
    BitVec.getLsbD_or, BitVec.getLsbD_twoPow, BitVec.getLsbD_twoPow, BitVec.getLsbD_setWidth, decide_eq_true hj,
    Bool.true_and]
  by_cases hjk : j < c.n - c.k
  · rw [if_pos hjk, decide_eq_false (show ¬ c.n - 1 - i = j by omega), Bool.and_false, Bool.false_or]
  · rw [if_neg hjk, parity_high _ _ _ _ (fun _ => toNat_lt_of_mem_rows h) j (Nat.le_of_not_lt hjk), Bool.or_false]
    simp only [← Bool.decide_and, decide_eq_decide]
    omega

theorem toNat_xor_lt {n : Nat} {v x : Vec} (hv : v.toNat < 2 ^ n) (hx : x.toNat < 2 ^ n) : (v ^^^ x).toNat < 2 ^ n := by
  rw [BitVec.toNat_xor]
  exact Nat.xor_lt_two_pow hv hx

theorem toNat_lt_of_lt_succ {v : Vec} {d : Nat} (h : v.toNat < 2 ^ (d + 1)) (hbit : v.getLsbD d = false) :
    v.toNat < 2 ^ d := by
  refine Nat.lt_pow_two_of_testBit _ fun i hi => ?_
  rcases hi.eq_or_lt with rfl | hi
  · exact hbit
  · exact getLsbD_of_toNat_lt v (d + 1) i h hi

/-- The search for the least weight is at most the weight of every word it runs over: those of the information words of
the last d rows XORed into acc, the XOR of no rows only when `used` is true. -/
theorem minWeight_le {cfg : Cfg} {c : Code} (h : cfg.rowsOk c = true) {d : Nat} (hd : d ≤ c.k) (acc : Nat) (used : Bool)
    (u : Vec) (hu : u.toNat < 2 ^ d) (hused : used = true ∨ u ≠ 0) :
    minWeight c.n ((List.range' (c.k - d) d).map (fun i => (cfg.generatorRow c i).toNat)) acc used ≤
      onesBelow c.n (acc ^^^ (cfg.encodeWord c u).toNat) := by
  induction d generalizing acc used u with
  | zero =>
    obtain rfl : u = 0 := BitVec.eq_of_toNat_eq (by simpa using hu)
    obtain rfl : used = true := hused.resolve_right (· rfl)
    rw [encodeWord_zero h]
    simp [minWeight]
  | succ d ih =>
    rw [List.range'_succ, List.map_cons, minWeight, show c.k - (d + 1) + 1 = c.k - d by omega]
    cases hbit : u.getLsbD d with
    | false =>
      exact (Nat.min_le_left _ _).trans (ih (by omega) acc used u (toNat_lt_of_lt_succ hu hbit) hused)
    | true =>
      have hlt : (u ^^^ BitVec.twoPow 256 d).toNat < 2 ^ d := by
        have hd256 : d < 256 := by have := (Code.dims c).2.2.1; omega
        refine toNat_lt_of_lt_succ ?_ (by simp [hbit, BitVec.getLsbD_twoPow, hd256, -BitVec.getLsbD_eq_getElem])
        refine toNat_xor_lt hu ?_
        rw [BitVec.toNat_twoPow_of_lt hd256]
        exact Nat.pow_lt_pow_right (by decide) (Nat.lt_succ_self d)
      have hrow : cfg.encodeWord c u =
          cfg.generatorRow c (c.k - (d + 1)) ^^^ cfg.encodeWord c (u ^^^ BitVec.twoPow 256 d) := by
        rw [← encodeWord_twoPow h (by omega), ← encodeWord_xor h]
        congr 1
        rw [show c.k - 1 - (c.k - (d + 1)) = d by omega, BitVec.xor_comm u, ← BitVec.xor_assoc, BitVec.xor_self,
          BitVec.zero_xor]
      rw [hrow, BitVec.toNat_xor, ← Nat.xor_assoc]
      exact (Nat.min_le_right _ _).trans (ih (by omega) _ true _ hlt (.inl rfl))

/-- No nonzero information word has a codeword lighter than dmin_c (00_scope.md R8). -/
theorem dmin_le_popcount {cfg : Cfg} {c : Code} (h : cfg.rowsOk c = true) {u : Vec} (hlt : u.toNat < 2 ^ c.k)
    (hu : u ≠ 0) : cfg.dmin c ≤ popcount (cfg.encodeWord c u) := by
  have hle := minWeight_le h (le_refl c.k) 0 false u hlt (.inr hu)
  rw [Nat.sub_self, ← List.range_eq_range', Nat.zero_xor] at hle
  rw [popcount, onesBelow_of_lt c.n 256 _ (toNat_encodeWord_lt h u) ((Code.dims c).2.1.trans (by decide))]
  exact hle

theorem depth_of_ne {c : Code} (hc : c ≠ .gol24128) (cfg : Cfg) : cfg.depth c = (cfg.dmin c - 1) / 2 := by
  cases c with
  | gol24128 => exact absurd rfl hc
  | _ => rfl

/-- What a valid configuration gives of a code with a table (00_scope.md R9, 40_block_fec.md R144). -/
theorem rowsOk_and_depth_lt_dmin {cfg : Cfg} (hcfg : cfg.wf = true) {c : Code} (hc : c.hasTable = true) :
    cfg.rowsOk c = true ∧ 2 * cfg.depth c < cfg.dmin c := by
  have hmem : c ∈ Code.all := by cases c <;> decide
  simp only [Cfg.wf, Bool.and_eq_true] at hcfg
  obtain ⟨⟨⟨⟨⟨⟨⟨⟨⟨hrows, hdepth⟩, -⟩, -⟩, -⟩, -⟩, -⟩, -⟩, -⟩, -⟩ := hcfg
  refine ⟨List.all_eq_true.1 hrows c (List.mem_filter.2 ⟨hmem, by simpa using ne_rs2412_of_hasTable hc⟩), ?_⟩
  have hok := List.all_eq_true.1 hdepth c (List.mem_filter.2 ⟨hmem, hc⟩)
  obtain ⟨hdepth, hstub⟩ := Bool.and_eq_true_iff.1 hok
  obtain ⟨hpos, -⟩ := of_decide_eq_true hdepth
  by_cases hg : c = .gol24128
  · subst hg
    have hdmin : 5 ≤ cfg.dmin .gol24128 := by simpa using hstub
    exact Nat.lt_of_lt_of_le (Nat.lt_succ_self 4) hdmin
  · rw [depth_of_ne hg] at hpos ⊢
    omega

/-- An n-bit word of syndrome 0 is a codeword (40_block_fec.md R142). -/
theorem eq_encodeWord_of_syndrome_zero {cfg : Cfg} {c : Code} (h : cfg.rowsOk c = true) {v : Vec}
    (hlt : v.toNat < 2 ^ c.n) (hs : cfg.syndrome c v = 0) : v = cfg.encodeWord c (slice 256 v (c.n - c.k) c.k) :=
  (codeword_eq_self hlt).symm.trans (codeword_eq_encodeWord h hs)

theorem syndrome_xor_eq_zero {cfg : Cfg} {c : Code} {v x : Vec} (hs : cfg.syndrome c v = cfg.syndrome c x) :
    cfg.syndrome c (v ^^^ x) = 0 := by
  rw [syndrome_xor, hs, BitVec.xor_self, BitVec.ofNat_eq_ofNat]

/-- A word of syndrome 0 lighter than dmin_c is 0. -/
theorem eq_zero_of_syndrome_zero {cfg : Cfg} {c : Code} (h : cfg.rowsOk c = true) {e : Vec} (hlt : e.toNat < 2 ^ c.n)
    (hs : cfg.syndrome c e = 0) (hw : popcount e < cfg.dmin c) : e = 0 := by
  have hcode := eq_encodeWord_of_syndrome_zero h hlt hs
  by_contra he
  refine Nat.not_le.2 hw ?_
  rw [hcode]
  refine dmin_le_popcount h ?_ fun hu => he ?_
  · exact Nat.lt_pow_two_of_testBit _ fun i hi => by
      rw [← BitVec.getLsbD, getLsbD_slice, decide_eq_false (Nat.not_lt.2 hi), Bool.false_and, Bool.and_false]
  · rw [hcode, hu, encodeWord_zero h]

/-- In a valid configuration the words of weight up to t_c have different syndromes (40_block_fec.md R144). -/
theorem eq_of_syndrome_eq {cfg : Cfg} (hcfg : cfg.wf = true) {c : Code} (hc : c.hasTable = true) {e e' : Vec}
    (hlt : e.toNat < 2 ^ c.n) (hlt' : e'.toNat < 2 ^ c.n) (hw : popcount e ≤ cfg.depth c)
    (hw' : popcount e' ≤ cfg.depth c) (hs : cfg.syndrome c e = cfg.syndrome c e') : e = e' := by
  obtain ⟨hrows, hdmin⟩ := rowsOk_and_depth_lt_dmin hcfg hc
  have hzero : e ^^^ e' = 0 := by
    refine eq_zero_of_syndrome_zero hrows (toNat_xor_lt hlt hlt') (syndrome_xor_eq_zero hs) ?_
    have hle := popcount_xor_le e e'
    omega
  exact BitVec.xor_eq_zero_iff.1 hzero

/-- The correction for the syndrome of a word of weight up to t_c is that word (40_block_fec.md R149). -/
theorem correction_syndrome {cfg : Cfg} (hcfg : cfg.wf = true) {c : Code} (hc : c.hasTable = true) {e : Vec}
    (hlt : e.toNat < 2 ^ c.n) (hw : popcount e ≤ cfg.depth c) :
    correction cfg c (cfg.syndrome c e) = some e := by
  obtain ⟨hrows, hdmin⟩ := rowsOk_and_depth_lt_dmin hcfg hc
  by_cases hs : cfg.syndrome c e = 0
  · rw [hs, correction_zero, eq_zero_of_syndrome_zero hrows hlt hs (by omega)]
  · have he : e ≠ 0 := by
      rintro rfl
      exact hs (syndrome_zero cfg c)
    obtain ⟨e', htab, -⟩ := exists_syndromeTable_le hlt he hw hs
    obtain ⟨-, hs', hlt', -, hw'⟩ := syndromeTable_entry htab
    rw [correction_of_ne_zero hs, htab, eq_of_syndrome_eq hcfg hc hlt' hlt hw' hw hs']

/-- A correction is an n-bit word of the same syndrome (40_block_fec.md R145). -/
theorem correction_eq_some {cfg : Cfg} {c : Code} {s : BitVec 64} {e : Vec} (h : correction cfg c s = some e) :
    e.toNat < 2 ^ c.n ∧ cfg.syndrome c e = s := by
  rcases correction_cases cfg c s with ⟨rfl, he⟩ | ⟨-, e', htab, he⟩ | ⟨-, -, he⟩ <;> rw [he] at h <;> cases h
  · exact ⟨Nat.two_pow_pos c.n, syndrome_zero cfg c⟩
  · obtain ⟨-, hs, hlt, -⟩ := syndromeTable_entry htab
    exact ⟨hlt, hs⟩

/-- NFLIP holds the weight of the correction, which is at most 3 (10_state.md R44). -/
theorem tableDecode_nflip {cfg : Cfg} (hcfg : cfg.wf = true) {c : Code} (hc : c.hasTable = true) (u : FecUnit) :
    (tableDecode cfg c u).fecRes.nflip.toNat =
      popcount ((correction cfg c (cfg.syndrome c (codeword c u.opd))).getD 0) := by
  have hdepth := ((Cfg.wf_bounds hcfg).1 c hc).2
  have hpop := popcount_correction_le cfg c (cfg.syndrome c (codeword c u.opd))
  exact Nat.mod_eq_of_lt (by omega)

/-- Settles O31: the syndrome of the received word is that of the error word, which the table gives back. -/
theorem upToDepthErrorsAreCorrected : Obligations.UpToDepthErrorsAreCorrected := by
  intro c s u e hcfg hc hlt _ hw hrecv hval
  have hrows := (rowsOk_and_depth_lt_dmin hcfg hc).1
  have hcorr : correction s.cfg c (s.cfg.syndrome c (codeword c s.fec.opd)) = some e := by
    rw [hrecv, syndrome_xor, syndrome_encodeWord hrows, BitVec.ofNat_eq_ofNat, BitVec.zero_xor,
      correction_syndrome hcfg hc hlt hw]
  have hres : (tableDecode s.cfg c s.fec).res = s.cfg.encodeWord c u := by
    rw [tableDecode_res, hcorr, Option.getD_some, hrecv, BitVec.xor_assoc, BitVec.xor_self, BitVec.xor_zero]
  refine ⟨fecDecode c s, exec_fecDecode hval, ?_⟩
  rw [fecDecode_fec_of_hasTable hc]
  refine ⟨?_, hres, ?_, fun i hi => ?_⟩
  · rw [tableDecode_ok, hcorr, Option.isSome_some]
  · rw [tableDecode_nflip hcfg hc, hcorr, Option.getD_some]
  · rw [← hres]
    exact getLsbD_infoOf c _ hi

/-- Settles O32: there is a correction or none; a corrected word has syndrome 0, so it is a codeword. -/
theorem fecDecodeOutcomes : Obligations.FecDecodeOutcomes := by
  intro c s t hcfg hc hexec
  have hrows := (rowsOk_and_depth_lt_dmin hcfg hc).1
  obtain rfl : fecDecode c s = t := effect_of_exec_eq_next hexec
  have hdepth := popcount_correction_le s.cfg c (s.cfg.syndrome c (codeword c s.fec.opd))
  rw [fecDecode_fec_of_hasTable hc, tableDecode_nflip hcfg hc, tableDecode_ok]
  cases hcorr : correction s.cfg c (s.cfg.syndrome c (codeword c s.fec.opd)) with
  | none =>
    refine .inl ⟨rfl, ?_, ?_⟩
    · rw [tableDecode_res, hcorr]
      exact BitVec.xor_zero
    · refine BitVec.eq_of_toNat_eq ?_
      rw [tableDecode_nflip hcfg hc, hcorr]
      exact popcount_zero
  | some e =>
    obtain ⟨hlt, hs⟩ := correction_eq_some hcorr
    have hres : (tableDecode s.cfg c s.fec).res = codeword c s.fec.opd ^^^ e := by
      rw [tableDecode_res, hcorr, Option.getD_some]
    refine .inr ⟨rfl, ?_, ?_, hcorr ▸ hdepth⟩
    · rw [hres]
      exact ⟨_, eq_encodeWord_of_syndrome_zero hrows (toNat_xor_lt (toNat_codeword_lt c _) hlt)
        (syndrome_xor_eq_zero hs.symm)⟩
    · rw [hres, Option.getD_some, BitVec.xor_comm (codeword c s.fec.opd) e, BitVec.xor_assoc, BitVec.xor_self,
        BitVec.xor_zero]

end Sys2Proof.Machine
end

section
/-! The Viterbi unit (41_viterbi.md): its word without fields, the add-compare-select of a step, the trace of a chainback
and the shift register of the encoder. -/

namespace Sys2Proof.Machine

/-! ## CONV_START -/

/-- In a format without fields every operand bit is reserved, so any word but the row's own is illegal (30_encoding.md
R114, R115). -/
theorem issue_of_ne_header_word {o : Opcode} {v : Word} (hmask : o.fieldMask = 0)
    (hheader : v.extractLsb' 24 8 = o.header) (hne : v ≠ o.header ++ 0#24) (s : State) :
    issue v s = .next (s.recordError .illegal v) := by
  cases hdecode : decode v with
  | error e => rw [issue, hdecode]
  | ok i =>
    obtain ⟨o', hheader', hreserved, -⟩ := (decode_eq_ok_iff v i).1 hdecode
    obtain rfl : o' = o := Option.some.inj
      (((Opcode.ofWord_eq_some_iff v o').2 hheader').symm.trans ((Opcode.ofWord_eq_some_iff v o).2 hheader.symm))
    have hlow : v.extractLsb' 0 24 = 0#24 := by
      rw [← extractLsb'_and_fieldMask hreserved, hmask]
      exact BitVec.and_zero
    have hword : v.extractLsb' 24 8 ++ v.extractLsb' 0 24 = v := BitVec.extractLsb'_append_extractLsb'
    rw [hheader, hlow] at hword
    exact absurd hword.symm hne

/-- Settles O34: the new metrics are sixteen zeros, and CONV_START has no fields. -/
theorem convStartState : Obligations.ConvStartState := by
  intro s v
  refine ⟨⟨_, rfl, fun j => ?_, rfl, rfl⟩, fun hheader hne => ?_⟩
  · simp [Vector.getD, Array.getD]
  · exact ⟨_, issue_of_ne_header_word (o := .convStart) rfl hheader hne s, onlyErrorRecord_recordError s .illegal v⟩

/-! ## CONV_STEP -/

theorem absDiff_eq_natAbs (a b : Nat) : absDiff a b = (a - b : Int).natAbs := by
  unfold absDiff
  omega

theorem getD_newMetrics (cfg : Cfg) (pm : Vector (BitVec 16) 16) (s0 s1 : BitVec 8) {j : Nat} (hj : j < 16) :
    (newMetrics cfg pm s0 s1).getD j 0 = (addCompareSelect cfg pm s0 s1 j).2 := by
  rw [newMetrics, getD_ofFn, dif_pos hj]

/-- The decision and the metric of a state from its two sums: the upper one on a tie (41_viterbi.md R182). -/
def selectUpper (lower upper : BitVec 16) : Bool × BitVec 16 :=
  (decide (upper.toNat ≤ lower.toNat), if upper.toNat ≤ lower.toNat then upper else lower)

theorem selectUpper_eq (lower upper : BitVec 16) :
    (if upper ≤ lower then (true, upper) else (false, lower)) = selectUpper lower upper := by
  by_cases h : upper.toNat ≤ lower.toNat <;> simp [selectUpper, BitVec.le_def, h]

/-- State 2i takes the metric on its edge from state i and the complement on its edge from state i + 8. -/
theorem addCompareSelect_even (cfg : Cfg) (pm : Vector (BitVec 16) 16) (s0 s1 : BitVec 8) (i : Nat) :
    addCompareSelect cfg pm s0 s1 (2 * i) =
      selectUpper (pm.getD i 0 + branchMetric cfg s0 s1 i)
        (pm.getD (i + 8) 0 + (cfg.vitM - branchMetric cfg s0 s1 i)) := by
  rw [← selectUpper_eq]
  simp [addCompareSelect]

/-- State 2i + 1 takes them the other way round. -/
theorem addCompareSelect_odd (cfg : Cfg) (pm : Vector (BitVec 16) 16) (s0 s1 : BitVec 8) (i : Nat) :
    addCompareSelect cfg pm s0 s1 (2 * i + 1) =
      selectUpper (pm.getD i 0 + (cfg.vitM - branchMetric cfg s0 s1 i))
        (pm.getD (i + 8) 0 + branchMetric cfg s0 s1 i) := by
  have hdiv : (2 * i + 1) / 2 = i := by omega
  rw [← selectUpper_eq]
  simp [addCompareSelect, hdiv]

theorem getD_dec_convStepUnit (cfg : Cfg) (s0 s1 : BitVec 8) {u : VitUnit} (hdp : u.dp < 300) :
    (convStepUnit cfg s0 s1 u).dec.getD u.dp 0 = decisionWord cfg u.pm s0 s1 :=
  getD_setIfInBounds_self _ _ _ _ hdp

/-- Settles O35: each butterfly is the add-compare-select of its two new states. -/
theorem convStepButterflies : Obligations.ConvStepButterflies := by
  intro s s0 s1 hdp
  rcases convStep_cases s0 s1 s with ⟨hfull, -⟩ | ⟨-, hstep⟩
  · omega
  · refine ⟨_, rfl, ?_⟩
    rw [hstep]
    simp only [State.setUnwritten_vit, State.setVit_vit, State.setUnwritten_unwritten, getD_dec_convStepUnit _ _ _ hdp,
      getLsbD_decisionWord]
    refine ⟨rfl, fun j => ?_, fun j hj => getD_setIfInBounds_ne _ _ _ _ _ (Ne.symm hj), fun b hb => ?_,
      fun i hi => ?_⟩
    · split
      next hj => rw [hj, getD_setIfInBounds_self _ _ _ _ hdp]
      next hj => exact getD_setIfInBounds_ne _ _ _ _ _ (Ne.symm hj)
    · rw [decide_eq_false (Nat.not_lt.2 hb), Bool.false_and]
    · have heven : 2 * i < 16 := by omega
      have hodd : 2 * i + 1 < 16 := by omega
      simp only [convStepUnit, getD_newMetrics _ _ _ _ heven, getD_newMetrics _ _ _ _ hodd, heven, hodd,
        addCompareSelect_even, addCompareSelect_odd, branchMetric, absDiff_eq_natAbs]
      exact ⟨rfl, rfl, rfl, rfl⟩

/-- Settles O36: DP = 300 is the first case of CONV_STEP. -/
theorem convStepAtCapacity : Obligations.ConvStepAtCapacity := by
  intro s s0 s1 hdp
  rcases convStep_cases s0 s1 s with ⟨-, hfail⟩ | ⟨hlt, -⟩
  · exact ⟨_, rfl, hfail ▸ onlyErrorRecord_recordError s .cap _⟩
  · omega

/-! ## CONV_CHAINBACK -/

/-- The decision that the 8-bit state register selects in DEC[k], at the index of its high half (41_viterbi.md R185). -/
def decisionAt (dec : Vector (BitVec 64) 300) (k : Nat) (st : BitVec 8) : Bool :=
  (dec.getD k 0).getLsbD (st.toNat / 16)

/-- The state register after q turns of the chainback loop that starts at state 0 with the given DP. -/
def traceState (dec : Vector (BitVec 64) 300) (dp : Nat) : Nat → BitVec 8
  | 0 => 0
  | q + 1 =>
    (if decisionAt dec (dp - 1 - q) (traceState dec dp q) then 0x80#8 else 0#8) ||| (traceState dec dp q >>> 1)

/-- The register shifted right with a bit put in at its top. -/
theorem ofBool_append_extractLsb' (b : Bool) (st : BitVec 8) :
    BitVec.ofBool b ++ st.extractLsb' 1 7 = (if b then 0x80#8 else 0#8) ||| (st >>> 1) := by
  revert b st
  decide

/-- One turn of the loop: DP, the register and one bit of COUT move on. -/
theorem chainback_traceState_succ (dec : Vector (BitVec 64) 300) (dp q r : Nat) (cout : BitVec 512) :
    chainback dec (r + 1) (dp - q) (traceState dec dp q) cout =
      chainback dec r (dp - (q + 1)) (traceState dec dp (q + 1))
        (setBit cout r (decisionAt dec (dp - 1 - q) (traceState dec dp q))) := by
  have hbit : (dec.getD (dp - q - 1) 0).getLsbD (traceState dec dp q >>> 4).toNat =
      decisionAt dec (dp - 1 - q) (traceState dec dp q) := by
    rw [decisionAt, Nat.sub_right_comm, BitVec.toNat_ushiftRight, Nat.shiftRight_eq_div_pow]
  rw [chainback, hbit, ofBool_append_extractLsb', ← traceState, Nat.sub_sub]

/-- The loop with n turns left puts the decision of its i-th turn at bit n − 1 − i of COUT. -/
theorem getLsbD_chainback (dec : Vector (BitVec 64) 300) (dp : Nat) {n : Nat} (hn : n ≤ 512) (q : Nat)
    (cout : BitVec 512) {i : Nat} (hi : i < n) :
    (chainback dec n (dp - q) (traceState dec dp q) cout).2.getLsbD (n - 1 - i) =
      decisionAt dec (dp - 1 - (q + i)) (traceState dec dp (q + i)) := by
  induction n generalizing q cout i with
  | zero => omega
  | succ r ih =>
    rw [chainback_traceState_succ]
    cases i with
    | zero => rw [Nat.sub_zero, chainback_high _ _ _ _ _ _ (by omega), getLsbD_setBit, if_pos (by omega), Nat.add_zero]
    | succ i =>
      rw [show r + 1 - 1 - (i + 1) = r - 1 - i by omega, ih (by omega) _ _ (by omega),
        show q + 1 + i = q + (i + 1) by omega]

/-- Settles O37: the trace is that of the state register, turn by turn. -/
theorem convChainbackTrace : Obligations.ConvChainbackTrace := by
  intro s nbits hn hval
  rcases convChainback_cases nbits s with ⟨hlt, -⟩ | ⟨-, hnext⟩
  · omega
  · refine ⟨_, exec_convChainback hval, ?_⟩
    rw [hnext]
    refine ⟨rfl, getLsbD_clearBelow _ _, chainback_high _ _ _ _ _, traceState s.vit.dec s.vit.dp, rfl,
      fun q hq => ⟨rfl, ?_⟩⟩
    have hbit := getLsbD_chainback s.vit.dec s.vit.dp (Nat.le_of_lt nbits.isLt) 0 s.vit.cout hq
    rwa [Nat.zero_add] at hbit

/-- Settles O38: NBITS > DP is the first case of CONV_CHAINBACK, which then reads nothing. -/
theorem convChainbackBeyondDp : Obligations.ConvChainbackBeyondDp := by
  intro s nbits hlt
  rcases convChainback_cases nbits s with ⟨-, hfail⟩ | ⟨hle, -⟩
  · refine ⟨_, reading_next _ fun k hk => ?_, hfail ▸ onlyErrorRecord_recordError s .range _⟩
    simp [hlt] at hk
  · omega

/-! ## CONV_ENCODE -/

/-- A shift register of w bits before input bit b: the w input bits before it, the last one in bit 0, and zeros before
the first (41_viterbi.md R187). -/
def lastBits (w : Nat) (cin : BitVec 512) (b : Nat) : BitVec w :=
  ofBits w (fun q => decide (q < b) && cin.getLsbD (b - 1 - q))

theorem lastBits_zero (w : Nat) (cin : BitVec 512) : lastBits w cin 0 = 0 := by
  apply BitVec.eq_of_getLsbD_eq
  intro i _
  simp [lastBits]

theorem setWidth_lastBits (cin : BitVec 512) (b : Nat) : (lastBits 5 cin b).setWidth 4 = lastBits 4 cin b := by
  apply BitVec.eq_of_getLsbD_eq
  intro i hi
  simp only [BitVec.getLsbD_setWidth, lastBits, getLsbD_ofBits, hi, show i < 5 by omega, decide_true, Bool.true_and]

theorem lastBits_append (cin : BitVec 512) (b : Nat) :
    lastBits 4 cin b ++ BitVec.ofBool (cin.getLsbD b) = lastBits 5 cin (b + 1) := by
  apply BitVec.eq_of_getLsbD_eq
  intro i hi
  cases i with
  | zero => rw [getLsbD_append_ofBool]; simp [lastBits, -BitVec.getLsbD_eq_getElem]
  | succ i =>
    rw [getLsbD_append_of_le (Nat.le_add_left 1 i)]
    simp [lastBits, Nat.sub_sub, Nat.add_comm 1, hi, show i < 4 by omega, -BitVec.getLsbD_eq_getElem]

theorem popcount_eq_countP {w : Nat} (v : BitVec w) : popcount v = (List.range w).countP v.getLsbD := by
  rw [popcount, onesBelow_eq, List.countP_eq_length_filter]
  rfl

/-- A tap parity is that of the input bits that the taps select, bit b and its four predecessors (41_viterbi.md R187). -/
theorem tapParity_lastBits (m : BitVec 5) (cin : BitVec 512) (b : Nat) :
    tapParity m (lastBits 5 cin (b + 1)) = decide ((List.range 5).countP (fun q =>
      m.getLsbD q && (decide (q ≤ b) && cin.getLsbD (b - q))) % 2 = 1) := by
  have hbit : ∀ q ∈ List.range 5, (lastBits 5 cin (b + 1) &&& m).getLsbD q = true ↔
      (m.getLsbD q && (decide (q ≤ b) && cin.getLsbD (b - q))) = true := fun q hq => by
    simp [lastBits, List.mem_range.1 hq, and_comm, -BitVec.getLsbD_eq_getElem]
  rw [tapParity, popcount_eq_countP, List.countP_congr hbit]
  rfl

/-- One turn of the loop: the register moves on and a pair of bits of CENC is written. -/
theorem convEncodeLoop_lastBits_succ (t1 t2 : BitVec 5) (cin : BitVec 512) (left b : Nat) (cenc : BitVec 1024) :
    convEncodeLoop t1 t2 cin (left + 1) b (lastBits 4 cin b) cenc =
      convEncodeLoop t1 t2 cin left (b + 1) (lastBits 4 cin (b + 1))
        (setBit (setBit cenc (2 * b) (tapParity t1 (lastBits 5 cin (b + 1)))) (2 * b + 1)
          (tapParity t2 (lastBits 5 cin (b + 1)))) := by
  rw [convEncodeLoop, lastBits_append, setWidth_lastBits]

/-- The loop puts the two parities of input bit j in bits 2j and 2j + 1 of CENC. -/
theorem getLsbD_convEncodeLoop (t1 t2 : BitVec 5) (cin : BitVec 512) {left b : Nat} (hle : b + left ≤ 512)
    (cenc : BitVec 1024) {j : Nat} (hb : b ≤ j) (hj : j < b + left) :
    (convEncodeLoop t1 t2 cin left b (lastBits 4 cin b) cenc).getLsbD (2 * j) = tapParity t1 (lastBits 5 cin (j + 1)) ∧
    (convEncodeLoop t1 t2 cin left b (lastBits 4 cin b) cenc).getLsbD (2 * j + 1) =
      tapParity t2 (lastBits 5 cin (j + 1)) := by
  induction left generalizing b cenc with
  | zero => omega
  | succ n ih =>
    rw [convEncodeLoop_lastBits_succ]
    rcases Nat.eq_or_lt_of_le hb with rfl | hlt
    · rw [convEncodeLoop_outside _ _ _ _ _ _ _ _ (by omega), convEncodeLoop_outside _ _ _ _ _ _ _ _ (by omega),
        getLsbD_setBit, if_neg (by omega), getLsbD_setBit, if_pos (by omega), getLsbD_setBit, if_pos (by omega)]
      exact ⟨rfl, rfl⟩
    · exact ih (by omega) _ (by omega) (by omega)

/-- Settles O39: the pair of input bit b, from a register that starts at 0. -/
theorem convEncodeTaps : Obligations.ConvEncodeTaps := by
  intro s nbits hn hval
  rcases convEncode_cases nbits s with ⟨hgt, -⟩ | ⟨-, hnext⟩
  · omega
  · refine ⟨_, exec_convEncode fun _ => hval, ?_⟩
    rw [hnext]
    refine ⟨rfl, getLsbD_clearBelow _ _, fun j hj => convEncodeLoop_outside _ _ _ _ _ _ _ _ (by omega),
      fun b hb => ?_⟩
    have hpair := getLsbD_convEncodeLoop s.cfg.vitTaps1 s.cfg.vitTaps2 s.vit.cin (left := nbits.toNat) (b := 0)
      (by omega) s.vit.cenc (Nat.zero_le b) (by omega)
    rwa [lastBits_zero, tapParity_lastBits, tapParity_lastBits] at hpair

/-- Settles O40: NBITS > 300 is the first case of CONV_ENCODE, which then reads nothing. -/
theorem convEncodeBeyondCapacity : Obligations.ConvEncodeBeyondCapacity := by
  intro s nbits hgt
  rcases convEncode_cases nbits s with ⟨-, hfail⟩ | ⟨hle, -⟩
  · exact ⟨_, exec_convEncode fun hle => absurd hle (Nat.not_le.2 hgt),
      hfail ▸ onlyErrorRecord_recordError s .range _⟩
  · omega

end Sys2Proof.Machine
end

section
/-! The trellis unit (42_trellis.md): the nearest next states, the path of the loop and the packing of its dibits. -/

namespace Sys2Proof.Machine

/-! ## The nearest next states -/

section
variable {cfg : Cfg} {state j k : Dibit} {cw : BitVec 4}

theorem mem_nextStates (j : Dibit) : j ∈ nextStates := by
  revert j
  decide

theorem nodup_nearestStates (cfg : Cfg) (state : Dibit) (cw : BitVec 4) : (nearestStates cfg state cw).Nodup :=
  List.Nodup.filter _ (by decide)

theorem mem_nearestStates :
    j ∈ nearestStates cfg state cw ↔ ∀ k, trellisDistance cfg state cw j ≤ trellisDistance cfg state cw k := by
  simp [nearestStates, mem_nextStates]

theorem nearestStates_ne_nil (cfg : Cfg) (state : Dibit) (cw : BitVec 4) : nearestStates cfg state cw ≠ [] := by
  obtain ⟨j, hj⟩ := Finite.exists_min (trellisDistance cfg state cw)
  exact List.ne_nil_of_mem (mem_nearestStates.2 hj)

theorem trellisNext_eq_some_iff : trellisNext cfg state cw = some j ↔ nearestStates cfg state cw = [j] := by
  unfold trellisNext
  split
  next hnear => rw [hnear]; simp
  next hnear => exact ⟨nofun, fun h => absurd h (hnear j)⟩

/-- A step goes to a next state that is nearer than every other. -/
theorem trellisDistance_lt_of_trellisNext (h : trellisNext cfg state cw = some j) (hk : k ≠ j) :
    trellisDistance cfg state cw j < trellisDistance cfg state cw k := by
  have hnear := trellisNext_eq_some_iff.1 h
  have hmin := mem_nearestStates.1 (hnear ▸ List.mem_singleton_self j)
  have hnot : k ∉ nearestStates cfg state cw := by rwa [hnear, List.mem_singleton]
  rw [mem_nearestStates, not_forall] at hnot
  obtain ⟨k', hk'⟩ := hnot
  exact (hmin k').trans_lt (Nat.lt_of_not_le hk')

/-- At a tie two next states are nearest (42_trellis.md R212). -/
theorem exists_nearest_of_trellisNext_eq_none (h : trellisNext cfg state cw = none) :
    ∃ j j', j ≠ j' ∧ trellisDistance cfg state cw j = trellisDistance cfg state cw j' ∧
      ∀ k, trellisDistance cfg state cw j ≤ trellisDistance cfg state cw k := by
  have hnodup := nodup_nearestStates cfg state cw
  match hnear : nearestStates cfg state cw with
  | [] => exact absurd hnear (nearestStates_ne_nil cfg state cw)
  | [j] => rw [trellisNext_eq_some_iff.2 hnear] at h; cases h
  | j :: j' :: l =>
    have hj := mem_nearestStates.1 (show j ∈ nearestStates cfg state cw by simp [hnear])
    have hj' := mem_nearestStates.1 (show j' ∈ nearestStates cfg state cw by simp [hnear])
    have hne : j ≠ j' := by
      rw [hnear] at hnodup
      exact List.ne_of_not_mem_cons (List.nodup_cons.1 hnodup).1
    exact ⟨j, j', hne, Nat.le_antisymm (hj j') (hj' j), hj⟩

end

/-! ## The path -/

/-- The state before step i of TRELLIS12, as long as no step before it is a tie (42_trellis.md R211). -/
def trellisPath (cfg : Cfg) (tin : Vector Dibit 128) : Nat → Dibit
  | 0 => 0
  | i + 1 => (trellisNext cfg (trellisPath cfg tin i) (trellisCodeword tin i)).getD 0

section
variable {cfg : Cfg} {tin : Vector Dibit 128}

theorem trellisLoop_succ_of_tie {i : Nat} {state : Dibit} (h : trellisNext cfg state (trellisCodeword tin i) = none)
    (left : Nat) (tdib : Vector Dibit 64) : trellisLoop cfg tin (left + 1) i state tdib = (tdib, some i) := by
  rw [trellisLoop, h]

theorem trellisPath_succ_of_some {i : Nat} {j : Dibit}
    (h : trellisNext cfg (trellisPath cfg tin i) (trellisCodeword tin i) = some j) : trellisPath cfg tin (i + 1) = j := by
  rw [trellisPath, h, Option.getD_some]

/-- One turn of the loop: the step, the state and one element of TDIB move on. -/
theorem trellisLoop_trellisPath_succ {i : Nat} {j : Dibit}
    (h : trellisNext cfg (trellisPath cfg tin i) (trellisCodeword tin i) = some j) (left : Nat) (tdib : Vector Dibit 64) :
    trellisLoop cfg tin (left + 1) i (trellisPath cfg tin i) tdib =
      trellisLoop cfg tin left (i + 1) (trellisPath cfg tin (i + 1))
        (tdib.setIfInBounds i (trellisPath cfg tin (i + 1))) := by
  rw [trellisLoop, h, trellisPath_succ_of_some h]

/-- A tie that the loop answers is one on the path. -/
theorem trellisNext_of_trellisLoop_tie {left i k : Nat} {tdib : Vector Dibit 64}
    (h : (trellisLoop cfg tin left i (trellisPath cfg tin i) tdib).2 = some k) :
    trellisNext cfg (trellisPath cfg tin k) (trellisCodeword tin k) = none := by
  induction left generalizing i tdib with
  | zero => cases h
  | succ n ih =>
    cases hnext : trellisNext cfg (trellisPath cfg tin i) (trellisCodeword tin i) with
    | none =>
      rw [trellisLoop_succ_of_tie hnext] at h
      cases h
      exact hnext
    | some j =>
      rw [trellisLoop_trellisPath_succ hnext] at h
      exact ih h

/-- Every step before the one at which the loop stops follows the path and writes its state to TDIB. -/
theorem trellisLoop_before_stop {left i : Nat} (hle : i + left ≤ 64) (tdib : Vector Dibit 64) {p : Nat} (hi : i ≤ p)
    (hp : p < (trellisLoop cfg tin left i (trellisPath cfg tin i) tdib).2.getD (i + left)) :
    trellisNext cfg (trellisPath cfg tin p) (trellisCodeword tin p) = some (trellisPath cfg tin (p + 1)) ∧
      (trellisLoop cfg tin left i (trellisPath cfg tin i) tdib).1.getD p 0 = trellisPath cfg tin (p + 1) := by
  induction left generalizing i tdib with
  | zero => exact absurd hp (Nat.not_lt.2 hi)
  | succ n ih =>
    cases hnext : trellisNext cfg (trellisPath cfg tin i) (trellisCodeword tin i) with
    | none =>
      rw [trellisLoop_succ_of_tie hnext] at hp
      exact absurd hp (Nat.not_lt.2 hi)
    | some j =>
      rw [trellisLoop_trellisPath_succ hnext] at hp ⊢
      rcases Nat.eq_or_lt_of_le hi with rfl | hlt
      · rw [trellisLoop_outside _ _ _ _ _ _ _ (.inl (Nat.lt_succ_self i)), getD_setIfInBounds_self _ _ _ _ (by omega)]
        exact ⟨trellisPath_succ_of_some hnext ▸ hnext, rfl⟩
      · exact ih (by omega) _ hlt (by rwa [Nat.add_assoc, Nat.add_comm 1 n])

/-- The loop does not stop before the step that it starts from. -/
theorem le_trellisLoop_stop (left i : Nat) (state : Dibit) (tdib : Vector Dibit 64) :
    i ≤ (trellisLoop cfg tin left i state tdib).2.getD (i + left) := by
  cases hstop : (trellisLoop cfg tin left i state tdib).2 with
  | none => exact Nat.le_add_right i left
  | some k => exact (trellisLoop_tie hstop).1

/-- From the step at which the loop stops on, TDIB is left as it was. -/
theorem trellisLoop_from_stop {left i : Nat} {tdib : Vector Dibit 64} {p : Nat}
    (hp : (trellisLoop cfg tin left i (trellisPath cfg tin i) tdib).2.getD (i + left) ≤ p) :
    (trellisLoop cfg tin left i (trellisPath cfg tin i) tdib).1.getD p 0 = tdib.getD p 0 := by
  induction left generalizing i tdib with
  | zero => rfl
  | succ n ih =>
    cases hnext : trellisNext cfg (trellisPath cfg tin i) (trellisCodeword tin i) with
    | none => rw [trellisLoop_succ_of_tie hnext]
    | some j =>
      rw [trellisLoop_trellisPath_succ hnext, ← Nat.add_assoc, Nat.add_right_comm] at hp
      have hlt : i < p := (le_trellisLoop_stop n (i + 1) _ _).trans hp
      rw [trellisLoop_trellisPath_succ hnext, ih hp, getD_setIfInBounds_ne _ _ _ _ _ hlt.ne]

end

/-! ## The bytes -/

/-- Four dibits packed MSB-first: dibit q stands at the bits 7 − 2q and 6 − 2q. -/
theorem extractLsb'_append_dibits : ∀ a b c d : Dibit, ∀ q, q < 4 →
    (a ++ b ++ c ++ d : Byte).extractLsb' (6 - 2 * q) 2 = [a, b, c, d].getD q 0 := by decide

theorem getD_trellisBytes (tdib : Vector Dibit 64) (b : Nat) :
    (trellisBytes tdib).getD b 0 = if b < 12 then trellisByte tdib b else 0 := by
  rw [trellisBytes, getD_ofFn]
  split
  · rfl
  · rw [if_neg (by omega)]

theorem getD_trellisBytes_of_ge (tdib : Vector Dibit 64) {b : Nat} (hb : 12 ≤ b) : (trellisBytes tdib).getD b 0 = 0 := by
  rw [getD_trellisBytes, if_neg (Nat.not_lt.2 hb)]

theorem extractLsb'_trellisBytes (tdib : Vector Dibit 64) {b q : Nat} (hb : b < 12) (hq : q < 4) :
    ((trellisBytes tdib).getD b 0).extractLsb' (6 - 2 * q) 2 = tdib.getD (4 * b + q) 0 := by
  rw [getD_trellisBytes, if_pos hb, trellisByte, extractLsb'_append_dibits _ _ _ _ q hq]
  interval_cases q <;> rfl

/-! ## TRELLIS12 -/

/-- The step at which TRELLIS12 stops: that of the first tie, or 49 (42_trellis.md R211, R212). -/
def trellisStop (s : State) : Nat := (trellisLoop s.cfg s.trl.tin 49 0 0 s.trl.tdib).2.getD 49

theorem trellisStop_le (s : State) : trellisStop s ≤ 49 := by
  rcases trellis12_cases s with ⟨hstop, -⟩ | ⟨k, hstop, hk, -⟩ <;> rw [trellisStop, hstop]
  · exact Nat.le_refl 49
  · exact hk.le

/-- A tie at which TRELLIS12 stops is one from the state of the path. -/
theorem trellisNext_of_tie {s : State} {k : Nat} (h : (trellisLoop s.cfg s.trl.tin 49 0 0 s.trl.tdib).2 = some k) :
    trellisNext s.cfg (trellisPath s.cfg s.trl.tin k) (trellisCodeword s.trl.tin k) = none :=
  trellisNext_of_trellisLoop_tie (i := 0) h

theorem trellis12_tdib (s : State) :
    (trellis12 s).trl.tdib = (trellisLoop s.cfg s.trl.tin 49 0 0 s.trl.tdib).1 := by
  simp [trellis12]

theorem trellis12_unwritten_tdib (s : State) :
    (trellis12 s).unwritten.tdib = clearFirst s.unwritten.tdib (trellisStop s) := by
  simp [trellis12, trellisStop]

theorem trellis12_before_stop {s : State} {i : Nat} (hi : i < trellisStop s) :
    trellisNext s.cfg (trellisPath s.cfg s.trl.tin i) (trellisCodeword s.trl.tin i) =
        some (trellisPath s.cfg s.trl.tin (i + 1)) ∧
      (trellis12 s).trl.tdib.getD i 0 = trellisPath s.cfg s.trl.tin (i + 1) := by
  rw [trellis12_tdib]
  exact trellisLoop_before_stop (i := 0) (by decide) s.trl.tdib (Nat.zero_le i) hi

theorem trellis12_from_stop {s : State} {i : Nat} (hi : trellisStop s ≤ i) :
    (trellis12 s).trl.tdib.getD i 0 = s.trl.tdib.getD i 0 := by
  rw [trellis12_tdib]
  exact trellisLoop_from_stop (i := 0) hi

theorem trellis12_frame (s : State) :
    let t := trellis12 s
    t = { s with
      trl := { s.trl with tdib := t.trl.tdib, tout := t.trl.tout, trlRes := t.trl.trlRes }
      unwritten := { s.unwritten with tdib := t.unwritten.tdib, tout := t.unwritten.tout }
      ctl := { s.ctl with sticky := t.ctl.sticky } } := by
  intro t
  rcases trellis12_cases s with ⟨-, h⟩ | ⟨k, -, -, h⟩
  · simp only [t, h, State.setTrl, State.setUnwritten]
  · simp only [t, h, State.setTrl, State.setUnwritten, State.signal, State.setCtl]

/-- Settles O41: the path is that of the loop's states, and the two endings are those of trellis12_cases. -/
theorem trellis12Path : Obligations.Trellis12Path := by
  intro s hval hd
  refine ⟨trellis12 s, trellisStop s, trellisPath s.cfg s.trl.tin, exec_trellis12 hval, trellisStop_le s, rfl,
    fun i hi => ?_, fun i => trellis12_from_stop, trellis12_frame s, fun i => ?_, ?_⟩
  · obtain ⟨hnext, htdib⟩ := trellis12_before_stop hi
    exact ⟨fun j => trellisDistance_lt_of_trellisNext hnext, htdib⟩
  · rw [trellis12_unwritten_tdib, getD_clearFirst]
  · rcases trellis12_cases s with ⟨hstop, h⟩ | ⟨k, hstop, hk, h⟩
    · have hm : trellisStop s = 49 := by rw [trellisStop, hstop, Option.getD_none]
      rw [h]
      refine .inl ⟨hm, rfl, fun b => ?_, rfl, fun b => getD_trellisBytes_of_ge _,
        fun b hb q => extractLsb'_trellisBytes _ hb⟩
      by_cases hb : b < 16 <;> simp [Vector.getD, hb]
    · have hm : trellisStop s = k := by rw [trellisStop, hstop, Option.getD_some]
      have htie := exists_nearest_of_trellisNext_eq_none (trellisNext_of_tie hstop)
      rw [h, hm]
      exact .inr ⟨hk, htie, rfl, rfl, by rw [State.signal_unwritten, State.setUnwritten_unwritten], rfl⟩

end Sys2Proof.Machine
end

section
/-! The sync unit (43_sync.md): the counts of a symbol, the scan entry by entry, what the action of a symbol may change,
the squelch timeout and the returns to search, and which steps leave LOOK and LOCKED. -/

namespace Sys2Proof.Machine

/-! ## The counts of a symbol -/

theorem eq_allOnes_iff (v : Word) : v = BitVec.allOnes 32 ↔ ¬ v.toNat + 1 < 2 ^ 32 := by
  rw [← BitVec.toNat_inj, BitVec.toNat_allOnes]
  omega

/-- A saturating counter below its maximum counts (60_exceptions.md R337). -/
theorem satInc_eq_ite (v : Word) : satInc v = if v.toNat + 1 < 2 ^ 32 then v + 1 else v := by
  by_cases hmax : v = BitVec.allOnes 32
  · rw [if_neg ((eq_allOnes_iff v).1 hmax)]
    exact if_pos (beq_iff_eq.2 hmax)
  · rw [if_pos (Decidable.not_not.1 (mt (eq_allOnes_iff v).2 hmax))]
    exact if_neg (mt beq_iff_eq.1 hmax)

theorem toNat_satInc (v : Word) : (satInc v).toNat = min (v.toNat + 1) (2 ^ 32 - 1) := by
  rw [satInc_eq_ite]
  split
  · rw [BitVec.toNat_add_of_lt (by simpa)]
    simp; omega
  · omega

/-- The parts of a symbol that every SYNC_STATE shares are those that Sys2Proof/Safety.lean lists. -/
theorem symbolUnit_eq_afterSymbol (nW : Nat) (u : SyncUnit) (d : Dibit) : symbolUnit nW u d = u.afterSymbol nW d := by
  simp only [symbolUnit, SyncUnit.shiftWindow, SyncUnit.countNxdn, SyncUnit.countWarm, SyncUnit.warm,
    SyncUnit.afterSymbol, satInc_eq_ite, decide_eq_true_eq]

/-! ## The scan -/

theorem entryMatches_eq (ctl : Control) (u : SyncUnit) (e : SyncEntry) :
    entryMatches ctl u e = (ctl.en e.proto && decide (u.mism e ≤ e.tol)) := by
  unfold entryMatches SyncUnit.mism mismatches
  simp only [Bool.decide_or, decide_not, bne, beq_eq_decide]
  rfl

theorem gateOpen_eq_shortGate (u : SyncUnit) : gateOpen u = u.shortGate := by
  unfold gateOpen SyncUnit.shortGate nxdnPeriod
  rw [Bool.decide_and, Bool.and_assoc, beq_eq_decide]

/-- The unit that a scan leaves which met these entries and accepted none of them (43_sync.md R237). -/
def SyncUnit.afterRefusals (ctl : Control) (u : SyncUnit) (es : List SyncEntry) : SyncUnit :=
  if gatedOut ctl u es then u.resetNxdn else u

theorem afterRefusals_eq (ctl : Control) (u : SyncUnit) (es : List SyncEntry) : u.afterRefusals ctl es =
    { u with
      nxdnCnt := if gatedOut ctl u es then 0 else u.nxdnCnt
      nxdnValid := if gatedOut ctl u es then false else u.nxdnValid } := by
  unfold SyncUnit.afterRefusals
  cases gatedOut ctl u es <;> rfl

/-- One turn of the scan: the entry is accepted, or the scan goes on (43_sync.md R237). -/
theorem scan_cons (ctl : Control) (e : SyncEntry) (es : List SyncEntry) (idx : Nat) (u : SyncUnit) :
    scan ctl (e :: es) idx u =
      if entryAccepted ctl u e then (u, some (idx, e, u.mism e))
      else scan ctl es (idx + 1) (u.afterRefusals ctl [e]) := by
  rw [scan]
  unfold entryAccepted SyncUnit.afterRefusals gatedOut
  simp only [entryMatches_eq, gateOpen_eq_shortGate, List.any_cons, List.any_nil, Bool.or_false]
  cases ctl.en e.proto with
  | false => simp
  | true =>
    by_cases htol : e.tol < u.mism e
    · simp [htol, Nat.not_le.2 htol]
    · cases e.short <;> cases u.shortGate <;> simp [htol, Nat.not_lt.1 htol]

/-- A gate refuses a short sync only while it is closed. -/
theorem gateOpen_eq_false_of_gatedOut {ctl : Control} {u : SyncUnit} {es : List SyncEntry}
    (h : gatedOut ctl u es = true) : gateOpen u = false := by
  obtain ⟨e, -, he⟩ := List.any_eq_true.1 h
  simpa using (Bool.and_eq_true_iff.1 he).2

/-- The matching test reads neither the NXDN count nor NXDN_VALID (43_sync.md R234). -/
theorem entryMatches_afterRefusals (ctl : Control) (u : SyncUnit) (es : List SyncEntry) :
    entryMatches ctl (u.afterRefusals ctl es) = entryMatches ctl u := by
  rw [afterRefusals_eq]
  rfl

/-- A refused short sync leaves the gate closed, as it was (43_sync.md R239). -/
theorem gateOpen_afterRefusals (ctl : Control) (u : SyncUnit) (es : List SyncEntry) :
    gateOpen (u.afterRefusals ctl es) = gateOpen u := by
  unfold SyncUnit.afterRefusals
  split
  case isTrue h => rw [gateOpen_eq_false_of_gatedOut h]; rfl
  case isFalse => rfl

theorem entryAccepted_afterRefusals (ctl : Control) (u : SyncUnit) (es : List SyncEntry) (e : SyncEntry) :
    entryAccepted ctl (u.afterRefusals ctl es) e = entryAccepted ctl u e := by
  rw [entryAccepted, entryMatches_afterRefusals, gateOpen_afterRefusals, entryAccepted]

theorem mism_afterRefusals (ctl : Control) (u : SyncUnit) (es : List SyncEntry) (e : SyncEntry) :
    (u.afterRefusals ctl es).mism e = u.mism e := by
  rw [afterRefusals_eq]
  rfl

/-- Refusing entries one after the other resets the NXDN count once (43_sync.md R237). -/
theorem afterRefusals_cons (ctl : Control) (u : SyncUnit) (e : SyncEntry) (es : List SyncEntry) :
    (u.afterRefusals ctl [e]).afterRefusals ctl es = u.afterRefusals ctl (e :: es) := by
  have htail : gatedOut ctl (u.afterRefusals ctl [e]) es = gatedOut ctl u es := by
    rw [gatedOut, entryMatches_afterRefusals, gateOpen_afterRefusals, gatedOut]
  have hcons : gatedOut ctl u (e :: es) = (gatedOut ctl u [e] || gatedOut ctl u es) := by simp [gatedOut]
  rw [SyncUnit.afterRefusals, htail, SyncUnit.afterRefusals, SyncUnit.afterRefusals, hcons]
  cases gatedOut ctl u [e] <;> cases gatedOut ctl u es <;> rfl

/-- The scan passes over entries that it accepts none of. -/
theorem scan_append_of_none_accepted {ctl : Control} {es : List SyncEntry} (rest : List SyncEntry) (idx : Nat)
    {u : SyncUnit} (h : ∀ e ∈ es, entryAccepted ctl u e = false) :
    scan ctl (es ++ rest) idx u = scan ctl rest (idx + es.length) (u.afterRefusals ctl es) := by
  induction es generalizing idx u with
  | nil => rfl
  | cons e es ih =>
    rw [List.cons_append, scan_cons, h e List.mem_cons_self, if_neg Bool.false_ne_true,
      ih (idx + 1) fun b hb => (entryAccepted_afterRefusals ..).trans (h b (List.mem_cons_of_mem e hb)),
      afterRefusals_cons, List.length_cons, Nat.add_assoc, Nat.add_comm 1]

theorem scan_of_none_accepted {ctl : Control} {es : List SyncEntry} {u : SyncUnit}
    (h : ∀ e ∈ es, entryAccepted ctl u e = false) : scan ctl es 0 u = (u.afterRefusals ctl es, none) := by
  simpa [scan] using scan_append_of_none_accepted [] 0 h

/-- The scan ends at the first entry that it accepts, whatever stands behind it (43_sync.md R237, R245). -/
theorem scan_of_first_accepted {ctl : Control} {before : List SyncEntry} {e : SyncEntry} (after : List SyncEntry)
    {u : SyncUnit} (hbefore : ∀ b ∈ before, entryAccepted ctl u b = false) (he : entryAccepted ctl u e = true) :
    scan ctl (before ++ e :: after) 0 u = (u.afterRefusals ctl before, some (before.length, e, u.mism e)) := by
  rw [scan_append_of_none_accepted _ 0 hbefore, scan_cons, entryAccepted_afterRefusals, he, if_pos rfl,
    mism_afterRefusals, Nat.zero_add]

/-! ## A symbol in LOOK -/

theorem warm_eq_true_iff (u : SyncUnit) : u.warm = true ↔ u.warmT < 18 := decide_eq_true_iff

theorem warm_eq_false_iff (u : SyncUnit) : u.warm = false ↔ ¬ u.warmT < 18 := decide_eq_false_iff_not

/-- PUSH_SYMBOL reads no buffer, so it completes in every state. -/
theorem exec_pushSymbol_of_look {s : State} (h : s.sync.state = .look) (d : Dibit) :
    exec (.pushSymbol d) s = .next (lookSymbol s.sync.warm (s.setSync (s.sync.afterSymbol s.cfg.nW d))) := by
  show Host.Outcome.next (pushSymbol d s) = _
  rw [pushSymbol_eq, h, symbolUnit_eq_afterSymbol]

theorem lookSymbol_of_scan_some {s : State} {u : SyncUnit} {idx m : Nat} {e : SyncEntry}
    (h : scan s.ctl s.cfg.syncTable 0 s.sync = (u, some (idx, e, m))) :
    lookSymbol false s = declareSync (s.setSync u) idx e m := by
  simp [lookSymbol, h]

theorem lookSymbol_of_scan_none {s : State} {u : SyncUnit} (h : scan s.ctl s.cfg.syncTable 0 s.sync = (u, none)) :
    lookSymbol false s = noMatch (s.setSync u) := by
  simp [lookSymbol, h]

/-- The long sync of NXDN (43_sync.md R239). -/
theorem longSync_eq_decide (e : SyncEntry) :
    (e.proto == nxdnProto && !e.short) = decide (e.proto = 5 ∧ e.short = false) := by
  rw [Bool.decide_and, beq_eq_decide, nxdnProto]
  cases e.short <;> rfl

/-- Settles O43: the scan passes over the entries before e and declares e in the unit that their refusals leave. -/
theorem firstAcceptedEntryIsDeclared : Obligations.FirstAcceptedEntryIsDeclared := by
  intro s d before after e hlook hwarm htable u he hbefore
  have hscan : scan s.ctl s.cfg.syncTable 0 u = (u.afterRefusals s.ctl before, some (before.length, e, u.mism e)) :=
    htable ▸ scan_of_first_accepted after hbefore he
  rw [exec_pushSymbol_of_look hlook, (warm_eq_false_iff _).2 (Nat.not_lt.2 hwarm),
    lookSymbol_of_scan_some (s := s.setSync u) hscan, declareSync, SyncUnit.declare, longSync_eq_decide]
  by_cases hlong : e.proto = 5 ∧ e.short = false <;> cases hgate : gatedOut s.ctl u before <;>
    simp only [hlong, SyncUnit.afterRefusals, hgate, State.signal, State.setCtl, State.setDil, State.setSync] <;> rfl

/-- The entries that a symbol of LOOK tests: none on a warm-up symbol (43_sync.md R235, R236). -/
def State.testedEntries (s : State) : List SyncEntry := if s.sync.warm then [] else s.cfg.syncTable

/-- A symbol of LOOK without a declaration is a non-match in the unit that the refusals of the scan leave. -/
theorem lookSymbol_of_none_accepted {s : State} {u : SyncUnit}
    (h : s.sync.warmT < 18 ∨ ∀ e ∈ s.cfg.syncTable, entryAccepted s.ctl u e = false) :
    lookSymbol s.sync.warm (s.setSync u) = noMatch (s.setSync (u.afterRefusals s.ctl s.testedEntries)) := by
  unfold State.testedEntries
  cases hw : s.sync.warm with
  | true => rfl
  | false =>
    exact lookSymbol_of_scan_none (s := s.setSync u)
      (scan_of_none_accepted (h.resolve_left ((warm_eq_false_iff _).1 hw)))

theorem gatedOut_testedEntries_iff (s : State) (u : SyncUnit) :
    gatedOut s.ctl u s.testedEntries = true ↔ 18 ≤ s.sync.warmT ∧ gatedOut s.ctl u s.cfg.syncTable = true := by
  unfold State.testedEntries
  by_cases hw : s.sync.warmT < 18
  · simp [(warm_eq_true_iff _).2 hw, gatedOut, Nat.not_le.2 hw]
  · simp [(warm_eq_false_iff _).2 hw, Nat.not_lt.1 hw]

/-- Settles O44: the two cases of a non-match, in the unit that the refusals of the scan leave. -/
theorem noMatchCountsTo1800 : Obligations.NoMatchCountsTo1800 := by
  intro s d hlook u hnone
  refine ⟨_, exec_pushSymbol_of_look hlook d, ?_⟩
  rw [lookSymbol_of_none_accepted hnone, afterRefusals_eq]
  simp only [gatedOut_testedEntries_iff]
  rcases noMatch_cases (s.setSync _) with ⟨he, hcnt⟩ | ⟨he, hcnt⟩ <;> rw [he]
  · exact ⟨fun _ => rfl, fun hne => absurd hcnt hne⟩
  · refine ⟨fun heq => absurd heq hcnt, fun _ => ⟨rfl, ?_⟩⟩
    split <;> exact ⟨rfl, rfl⟩

/-! ## What a symbol leaves unchanged -/

/-- What the action of a symbol leaves of the sync unit, and of everything beside it (43_sync.md R236;
44_deinterleave.md R288). -/
structure SymbolFrame (s t : State) : Prop where
  window : t.sync.window = s.sync.window
  vcnt : t.sync.vcnt = s.sync.vcnt
  warmT : t.sync.warmT = s.sync.warmT
  rest : t = { s with
    ctl := { s.ctl with sticky := t.ctl.sticky, errCode := t.ctl.errCode, errInfo := t.ctl.errInfo }
    sync := t.sync
    dil := t.dil
    unwritten := { s.unwritten with din := t.unwritten.din } }

theorem noMatch_symbolFrame (s : State) : SymbolFrame s (noMatch s) := by
  rcases noMatch_cases s with ⟨h, -⟩ | ⟨h, -⟩ <;> rw [h] <;> exact ⟨rfl, rfl, rfl, rfl⟩

theorem lookSymbol_symbolFrame (warm : Bool) (s : State) : SymbolFrame s (lookSymbol warm s) := by
  rcases lookSymbol_cases warm s with ⟨u, hu, h⟩ | ⟨u, idx, e, m, hu, -, -, h⟩ <;> rw [h]
  · have hframe := noMatch_symbolFrame (s.setSync u)
    rcases hu with rfl | rfl <;> exact { hframe with }
  · rcases hu with rfl | rfl <;> exact ⟨rfl, rfl, rfl, rfl⟩

theorem frameDibit_symbolFrame (d : Dibit) (v : Word) (s : State) : SymbolFrame s (frameDibit d v s) := by
  rcases frameDibit_cases d v s with ⟨h, -⟩ | ⟨-, ⟨h, -⟩ | ⟨h, -⟩ | ⟨h, -⟩⟩ <;> rw [h] <;> exact ⟨rfl, rfl, rfl, rfl⟩

/-- Beside the window, VCNT and WARM_T a symbol changes only what the action of its SYNC_STATE does. -/
theorem pushSymbol_symbolFrame (d : Dibit) (s : State) :
    SymbolFrame (s.setSync (s.sync.afterSymbol s.cfg.nW d)) (pushSymbol d s) := by
  rw [pushSymbol_eq, symbolUnit_eq_afterSymbol]
  cases s.sync.state with
  | look => exact lookSymbol_symbolFrame _ _
  | found => exact { frameDibit_symbolFrame d _ _ with }
  | locked => exact frameDibit_symbolFrame _ _ _

theorem getD_take_of_lt {α : Type} (l : List α) {n j : Nat} (x : α) (h : j < n) : (l.take n).getD j x = l.getD j x := by
  rw [List.getD_eq_getElem?_getD, List.getElem?_take_of_lt h, List.getD_eq_getElem?_getD]

/-- Settles O42: the window is cut to N_W after the new symbol is put first. -/
theorem pushSymbolShiftsTheWindow : Obligations.PushSymbolShiftsTheWindow := by
  intro s d
  obtain ⟨hwindow, hvcnt, hwarmT, hrest⟩ := pushSymbol_symbolFrame d s
  refine ⟨pushSymbol d s, rfl, fun h0 => ?_, fun j hj => ?_, fun j hj => ?_, hvcnt, hwarmT, hrest⟩ <;> rw [hwindow]
  · exact getD_take_of_lt (d :: s.sync.window) 0 h0
  · exact getD_take_of_lt (d :: s.sync.window) 0 hj
  · exact List.getD_eq_default _ _ ((List.length_take_le ..).trans hj)

/-! ## The squelch timeout and the returns to search -/

theorem squelchFires_iff (thresh cnt : Word) :
    squelchFires thresh cnt = true ↔ thresh ≠ 0 ∧ thresh.toNat ≤ cnt.toNat := by
  rw [squelchFires, Bool.and_eq_true_iff, bne_iff_ne, decide_eq_true_iff]

/-- Settles O46: the three cases of PUSH_SAMPLE. -/
theorem squelchTimeout : Obligations.SquelchTimeout := by
  intro s v cnt zero fires
  have hfires : squelchFires s.ctl.sqThresh (satInc s.sync.sqCnt) = true ↔ fires := by
    rw [squelchFires_iff, toNat_satInc]
  refine ⟨pushSample v s, rfl, ?_⟩
  rcases pushSample_cases v s with ⟨hclear, h⟩ | ⟨hlook, hv, ⟨hf, h⟩ | ⟨hf, h⟩⟩ <;> rw [h]
  · have hzero : ¬ zero := fun ⟨hlook, hv⟩ => hclear.elim hlook fun hne => hne hv
    exact ⟨fun _ => rfl, fun hz => absurd hz hzero, fun hz => absurd hz hzero⟩
  · exact ⟨fun hz => absurd ⟨hlook, hv⟩ hz, fun _ hn => absurd (hfires.1 hf) hn, fun _ _ => rfl⟩
  · have hno : ¬ fires := by rw [← hfires, hf]; exact Bool.false_ne_true
    exact ⟨fun hz => absurd ⟨hlook, hv⟩ hz, fun _ _ => ⟨toNat_satInc _, rfl⟩, fun _ hfire => absurd hfire hno⟩

/-- Settles O47: by the bit ABORT. -/
theorem resyncReturnsToLook : Obligations.ResyncReturnsToLook := by
  intro s abort
  refine ⟨_, rfl, ?_⟩
  cases abort with
  | false => exact ⟨rfl, fun _ => ⟨rfl, rfl, rfl⟩, fun h => by cases h⟩
  | true => exact ⟨rfl, fun h => (by cases h), fun _ => ⟨rfl, rfl, rfl⟩⟩

/-- At power-on WARM is the only live bit set (43_sync.md R250). -/
theorem liveBits_reset (cfg : Cfg) : (SyncUnit.reset cfg).liveBits = 0b000100 := by
  simp [SyncUnit.liveBits, SyncUnit.warm, SyncUnit.reset, SyncState.bits]

/-- The live bits of STATUS are its bits 5:0 (10_state.md R36). -/
theorem extractLsb'_statusWord (s : State) : s.statusWord.extractLsb' 0 6 = s.sync.liveBits := by
  refine BitVec.eq_of_getLsbD_eq fun i hi => ?_
  rw [BitVec.getLsbD_extractLsb', decide_eq_true hi, Bool.true_and, Nat.zero_add, getLsbD_statusWord, if_pos hi]

/-- Settles O48: the power-on sync unit, of N_W zero symbols and with WARM as its only live bit. -/
theorem syncResetState : Obligations.SyncResetState := by
  intro s
  have hstatus : (syncReset s).statusWord.extractLsb' 0 6 = 0b000100 := (extractLsb'_statusWord _).trans (liveBits_reset s.cfg)
  have hwindow : ∀ j, (List.replicate s.cfg.nW (0 : Dibit)).getD j 0 = 0 := fun j => by
    rw [List.getD_eq_getElem?_getD, List.getElem?_getD_replicate_default_eq]
  exact ⟨syncReset s, rfl, rfl, List.length_replicate, hwindow, rfl, rfl, rfl, rfl, rfl, rfl, rfl, rfl, rfl, rfl, rfl,
    hstatus⟩

/-! ## The steps that leave LOOK and LOCKED -/

theorem writeReg_sync (s : State) (v : Word) (r : Reg) : (writeReg s v r).sync = s.sync := by
  cases r
  case capPtr => rcases writeCapPtr_cases s v with ⟨-, h⟩ | ⟨-, h⟩ <;> simp [writeReg, h]
  all_goals simp [writeReg]

/-- The commands that reach the sync unit: those of UNIT 4 (30_encoding.md R116), and SOFT_RESET. -/
inductive ReachesSync : Instr → Prop where
  | softReset : ReachesSync .softReset
  | pushSymbol (d : Dibit) : ReachesSync (.pushSymbol d)
  | pushSample (v : BitVec 16) : ReachesSync (.pushSample v)
  | resync (abort : Bool) : ReachesSync (.resync abort)
  | syncReset : ReachesSync .syncReset

theorem effect_sync_or_reachesSync (i : Instr) (s : State) : (effect i s).sync = s.sync ∨ ReachesSync i := by
  cases i with
  | softReset => exact .inr .softReset
  | pushSymbol d => exact .inr (.pushSymbol d)
  | pushSample v => exact .inr (.pushSample v)
  | resync abort => exact .inr (.resync abort)
  | syncReset => exact .inr .syncReset
  | nop | convStart => exact .inl rfl
  | fecDecode c => obtain ⟨u, -, ⟨b, h⟩ | h⟩ := fecDecode_frame c s <;> simp [effect, h]
  | fecEncode c => rcases fecEncode_cases c s with ⟨-, h⟩ | ⟨-, h⟩ <;> simp [effect, h]
  | convStep s0 s1 => rcases convStep_cases s0 s1 s with ⟨-, h⟩ | ⟨-, h⟩ <;> simp [effect, h]
  | convChainback n => rcases convChainback_cases n s with ⟨-, h⟩ | ⟨-, h⟩ <;> simp [effect, h]
  | convEncode n => rcases convEncode_cases n s with ⟨-, h⟩ | ⟨-, h⟩ <;> simp [effect, h]
  | trellis12 => rcases trellis12_cases s with ⟨-, h⟩ | ⟨k, -, -, h⟩ <;> simp [effect, h]
  | deint slot => rcases deint_cases slot s with ⟨-, h⟩ | ⟨-, h⟩ <;> simp [effect, h]
  | pack off cnt shr => rcases pack_cases off cnt shr s with ⟨-, h⟩ | ⟨-, h⟩ <;> simp [effect, h]

/-- A host input leaves the sync unit, releases RST_N, or issues a command that reaches the unit. -/
theorem hostInput_sync_cases {x : HostInput} {s t : State} (h : hostInput x s = .next t) :
    t.sync = s.sync ∨
    (s.rstN = false ∧ x = .resetHigh ∧ t.sync = SyncUnit.reset s.cfg) ∨
    (s.rstN = true ∧ ∃ v i, x = cmdWrite v ∧ decode v = .ok i ∧ ReachesSync i ∧ t = effect i s) := by
  cases hr : s.rstN <;> cases x <;> simp only [hostInput, hr, if_true, if_false, Bool.false_eq_true] at h
  case true.write a width v =>
    rcases busWrite_cases s a width v with ⟨hcmd, hw⟩ | ⟨r, -, -, -, hw⟩ | ⟨-, hw⟩ <;> rw [hw] at h
    · rcases issue_cases v s with ⟨i, hi, hissue⟩ | ⟨-, -, hissue⟩ <;> rw [hissue] at h
      · obtain rfl := effect_of_exec_eq_next h
        refine (effect_sync_or_reachesSync i s).imp_right fun hreach => .inr ⟨rfl, ?_⟩
        exact ⟨v, i, eq_cmdWrite_of_accessed hcmd v, hi, hreach, rfl⟩
      · cases h; exact .inl rfl
    · cases h; exact .inl (writeReg_sync s v r)
    · cases h; exact .inl rfl
  all_goals cases h
  case true.read a width =>
    rcases busRead_cases s a width with ⟨r, x, n, -, hread, -⟩ | ⟨-, hread⟩ <;> rw [hread] <;> exact .inl rfl
  case false.resetHigh => exact .inr (.inl ⟨rfl, rfl, rfl⟩)
  all_goals exact .inl rfl

/-- A step leaves the sync unit, releases RST_N, or runs a command that reaches the unit. -/
theorem step_sync_cases {s t : State} (h : step s = .next t) :
    t.sync = s.sync ∨
    (s.rstN = false ∧ s.pending.head? = some .resetHigh ∧ t.sync = SyncUnit.reset s.cfg) ∨
    (s.rstN = true ∧ ∃ v i q, s.pending.head? = some (cmdWrite v) ∧ decode v = .ok i ∧ ReachesSync i ∧
      t = effect i (s.setPending q)) := by
  unfold step stepInput at h
  split at h
  case h_1 => cases h; exact .inl rfl
  case h_2 x q hp =>
    rw [hp]
    rcases hostInput_sync_cases h with hsync | ⟨hr, rfl, hsync⟩ | ⟨hr, v, i, rfl, hi, hreach, ht⟩
    · exact .inl hsync
    · exact .inr (.inl ⟨hr, rfl, hsync⟩)
    · exact .inr (.inr ⟨hr, v, i, q, rfl, hi, hreach, ht⟩)

theorem resync_state (u : SyncUnit) (abort : Bool) : (u.resync abort).state = .look := by cases abort <;> rfl

theorem frameDibit_state (d : Dibit) (v : Word) (s : State) : (frameDibit d v s).sync.state = s.sync.state := by
  rcases frameDibit_cases d v s with ⟨h, -⟩ | ⟨-, ⟨h, -⟩ | ⟨h, -⟩ | ⟨h, -⟩⟩ <;> rw [h] <;> rfl

/-- A symbol in LOCKED leaves it LOCKED (43_sync.md R236). -/
theorem pushSymbol_state_of_locked {s : State} (h : s.sync.state = .locked) (d : Dibit) :
    (pushSymbol d s).sync.state = .locked := by
  rw [pushSymbol_eq, h]
  exact (frameDibit_state ..).trans h

theorem getLsbD_or_twoPow_self (x : Word) {b : Nat} (hb : b < 32) : (x ||| BitVec.twoPow 32 b).getLsbD b = true := by
  rw [BitVec.getLsbD_or, BitVec.getLsbD_twoPow, decide_eq_true hb, decide_eq_true rfl, Bool.and_self, Bool.or_true]

/-- A sample leaves SYNC_STATE, unless it is the zero sample of a squelch timeout (43_sync.md R246). -/
theorem pushSample_state_cases (v : BitVec 16) (s : State) :
    (pushSample v s).sync.state = s.sync.state ∨
    (s.sync.state ≠ .look ∧ v = 0 ∧ (pushSample v s).sync.state = .look ∧
      (pushSample v s).ctl.sticky.getLsbD 10 = true) := by
  rcases pushSample_cases v s with ⟨-, h⟩ | ⟨hlook, hv, ⟨-, h⟩ | ⟨-, h⟩⟩ <;> rw [h]
  · exact .inl rfl
  · exact .inr ⟨hlook, hv, rfl, getLsbD_or_twoPow_self _ (by decide)⟩
  · exact .inl rfl

/-- Settles O57: of the commands that reach the sync unit, a symbol and a sample without a timeout leave it LOCKED, and
the others return to LOOK. -/
theorem lockedIsLeftOnlyByReturns : Obligations.LockedIsLeftOnlyByReturns := by
  intro s t hlocked hstep
  rcases step_sync_cases hstep with hsync | ⟨hr, hhead, hsync⟩ | ⟨hr, v, i, q, hhead, hi, hreach, rfl⟩
  · exact .inl (by rw [hsync, hlocked])
  · exact .inr ⟨by rw [hsync]; rfl, .inl ⟨hr, hhead⟩⟩
  · have hlocked' : (s.setPending q).sync.state = .locked := hlocked
    cases hreach with
    | softReset => exact .inr ⟨rfl, .inr ⟨hr, v, _, hhead, hi, .inl rfl⟩⟩
    | syncReset => exact .inr ⟨rfl, .inr ⟨hr, v, _, hhead, hi, .inr (.inl rfl)⟩⟩
    | resync abort => exact .inr ⟨resync_state _ abort, .inr ⟨hr, v, _, hhead, hi, .inr (.inr (.inl ⟨abort, rfl⟩))⟩⟩
    | pushSymbol d => exact .inl (pushSymbol_state_of_locked hlocked' d)
    | pushSample x =>
      rcases pushSample_state_cases x (s.setPending q) with hstate | ⟨-, rfl, hlook, hsquelch⟩
      · exact .inl (hstate.trans hlocked')
      · exact .inr ⟨hlook, .inr ⟨hr, v, _, hhead, hi, .inr (.inr (.inr ⟨rfl, hsquelch⟩))⟩⟩

theorem noMatch_state (s : State) : (noMatch s).sync.state = s.sync.state := by
  rcases noMatch_cases s with ⟨h, -⟩ | ⟨h, -⟩ <;> rw [h] <;> rfl

/-- A symbol in LOOK stays there, or declares a sync after the warm-up (43_sync.md R236, R238). -/
theorem pushSymbol_state_of_look {s : State} (h : s.sync.state = .look) (d : Dibit) :
    (pushSymbol d s).sync.state = .look ∨
    ((pushSymbol d s).sync.state = .found ∧ ¬ s.sync.warmT < 18 ∧ (pushSymbol d s).ctl.sticky.getLsbD 8 = true ∧
      (pushSymbol d s).sync.info.valid = true) := by
  rw [pushSymbol_eq, h]
  rcases lookSymbol_cases s.sync.warm (s.setSync (symbolUnit s.cfg.nW s.sync d)) with
    ⟨u, hu, he⟩ | ⟨u, idx, e, m, -, hwarm, -, he⟩ <;> simp only [he]
  · refine .inl ((noMatch_state _).trans ?_)
    rcases hu with rfl | rfl <;> exact h
  · exact .inr ⟨rfl, (warm_eq_false_iff _).1 hwarm, getLsbD_or_twoPow_self _ (by decide), rfl⟩

/-- Settles O58: of the commands that reach the sync unit, only a declaring symbol leads from LOOK to another state. -/
theorem lookIsLeftOnlyByDeclaration : Obligations.LookIsLeftOnlyByDeclaration := by
  intro s t hlook hstep hleft
  rcases step_sync_cases hstep with hsync | ⟨-, -, hsync⟩ | ⟨-, v, i, q, hhead, hi, hreach, rfl⟩
  · exact absurd (by rw [hsync, hlook]) hleft
  · exact absurd (by rw [hsync]; rfl) hleft
  · have hlook' : (s.setPending q).sync.state = .look := hlook
    cases hreach with
    | softReset | syncReset => exact absurd rfl hleft
    | resync abort => exact absurd (resync_state _ abort) hleft
    | pushSample x =>
      rcases pushSample_state_cases x (s.setPending q) with hstate | ⟨hne, -⟩
      · exact absurd (hstate.trans hlook') hleft
      · exact absurd hlook' hne
    | pushSymbol d =>
      obtain ⟨hfound, hwarm, hsticky, hvalid⟩ := (pushSymbol_state_of_look hlook' d).resolve_left hleft
      exact ⟨hfound, hwarm, hsticky, hvalid, v, d, hhead, hi⟩

end Sys2Proof.Machine
end

section
/-! The deinterleave unit (44_deinterleave.md): the bits of a packed value, PACK, and the frame path of a symbol. -/

namespace Sys2Proof.Machine

/-! ## PACK -/

theorem packDibits_succ {n : Nat} (b : Vector Dibit n) (off cnt : Nat) :
    packDibits b off (cnt + 1) = (packDibits b off cnt <<< 2) ||| (b.getD (off + cnt) 0).setWidth 256 := by
  rw [packDibits, List.range_succ, List.foldl_append]
  rfl

/-- The packed dibits stand MSB-first, the last one in the bits 1:0 (44_deinterleave.md R284). -/
theorem getLsbD_packDibits {n : Nat} (b : Vector Dibit n) (off : Nat) {cnt : Nat} (hcnt : cnt ≤ 128) (i : Nat) :
    (packDibits b off cnt).getLsbD i =
      (decide (i < 2 * cnt) && (b.getD (off + (cnt - 1 - i / 2)) 0).getLsbD (i % 2)) := by
  induction cnt generalizing i with
  | zero => simp [packDibits]
  | succ c ih =>
    rw [packDibits_succ, BitVec.getLsbD_or, BitVec.getLsbD_shiftLeft, BitVec.getLsbD_setWidth, ih (by omega)]
    by_cases hi : i < 2
    · simp [hi, Nat.div_eq_of_lt hi, Nat.mod_eq_of_lt hi, show i < 256 by omega, show i < 2 * (c + 1) by omega,
        -BitVec.getLsbD_eq_getElem]
    · rw [BitVec.getLsbD_of_ge (b.getD _ _) i (Nat.le_of_not_lt hi), show (i - 2) % 2 = i % 2 by omega,
        show c - 1 - (i - 2) / 2 = c + 1 - 1 - i / 2 by omega]
      by_cases hc : i < 2 * (c + 1)
      · simp [hi, hc, show i < 256 by omega, show i - 2 < 2 * c by omega]
      · simp [hc, show ¬ i - 2 < 2 * c by omega]

/-- Settles O50: bit b of OPD is bit b + SHR of the packed dibits. -/
theorem packBits : Obligations.PackBits := by
  intro s off cnt shr hcnt hle hval
  rcases pack_cases off cnt shr s with ⟨hout, -⟩ | ⟨-, hnext⟩
  · rw [(packOutOfRange_eq_false_iff off cnt).2 ⟨hcnt, hle⟩] at hout
    cases hout
  · have hbit : ∀ b, (pack off cnt shr s).fec.opd.getLsbD b =
        (packDibits s.dil.din off.toNat cnt.toNat).getLsbD (shr.toNat + b) := fun b => by
      rw [hnext]
      exact BitVec.getLsbD_ushiftRight _ _ _
    refine ⟨_, exec_pack fun _ => hval, by rw [hnext]; rfl, fun b hb => ?_, fun j hj h hh b hb => ?_⟩ <;>
      rw [hbit, getLsbD_packDibits _ _ (by omega)]
    · rw [decide_eq_false (by omega), Bool.false_and]
    · rw [decide_eq_true (by omega), Bool.true_and, show cnt.toNat - 1 - (shr.toNat + b) / 2 = j by omega,
        show (shr.toNat + b) % 2 = h by omega]

/-- Settles O51: these are the operands of the first case of PACK, which then reads nothing. -/
theorem pack_outOfRange : Obligations.PackOutOfRange := by
  intro s off cnt shr hout
  have hread : off.toNat + cnt.toNat ≤ 128 → ∀ j, j < cnt.toNat → s.unwritten.din.getD (off.toNat + j) 0 = 0 := by
    rcases hout with rfl | hgt
    · exact fun _ j hj => absurd hj (Nat.not_lt_zero j)
    · exact fun hle => absurd hle (Nat.not_le.2 hgt)
  rcases pack_cases off cnt shr s with ⟨-, hfail⟩ | ⟨hin, -⟩
  · exact ⟨_, exec_pack hread, hfail ▸ onlyErrorRecord_recordError s .range _⟩
  · obtain ⟨hne, hle⟩ := (packOutOfRange_eq_false_iff off cnt).1 hin
    exact absurd hout (not_or.2 ⟨hne, Nat.not_lt.2 hle⟩)

/-! ## A symbol in FOUND or LOCKED -/

theorem encode_pushSymbol (d : Dibit) : encode (.pushSymbol d) = 0x40000000 ||| d.setWidth 32 :=
  append_zero_append (k := 22) 0x40#8 d

/-- The status cadence, counted with the wrap of FRAME_CNT (44_deinterleave.md R291, R292). -/
theorem isStatusTurn_succ_iff (frameCnt : Word) :
    isStatusTurn (frameCnt + 1) = true ↔ (frameCnt.toNat + 1) % 2 ^ 32 % 36 = 0 := by
  rw [isStatusTurn, beq_iff_eq, BitVec.toNat_add]
  rfl

theorem getD_setIfInBounds {α : Type} {n : Nat} (v : Vector α n) {i : Nat} (hi : i < n) (j : Nat) (x d : α) :
    (v.setIfInBounds i x).getD j d = if j = i then x else v.getD j d := by
  split
  next hj => rw [hj, getD_setIfInBounds_self v i x d hi]
  next hj => exact getD_setIfInBounds_ne v i j x d (Ne.symm hj)

/-- The sync unit of a frame symbol before its frame dibit is taken (43_sync.md R236, R242). -/
def lockedAfterSymbol (nW : Nat) (u : SyncUnit) (d : Dibit) : SyncUnit := { u.afterSymbol nW d with state := .locked }

theorem lockedAfterSymbol_of_locked {u : SyncUnit} (h : u.state = .locked) (nW : Nat) (d : Dibit) :
    lockedAfterSymbol nW u d = u.afterSymbol nW d := by
  rw [lockedAfterSymbol, ← h]
  rfl

/-- In FOUND and in LOCKED a symbol is a frame dibit, taken in LOCKED. -/
theorem exec_pushSymbol_of_ne_look {s : State} (h : s.sync.state ≠ .look) (d : Dibit) :
    exec (.pushSymbol d) s =
      .next (frameDibit d (0x40000000 ||| d.setWidth 32) (s.setSync (lockedAfterSymbol s.cfg.nW s.sync d))) := by
  show Host.Outcome.next (pushSymbol d s) = _
  rw [pushSymbol_eq, symbolUnit_eq_afterSymbol, encode_pushSymbol]
  cases hs : s.sync.state with
  | look => exact absurd hs h
  | found => rfl
  | locked => rw [lockedAfterSymbol_of_locked hs]

/-- Settles O45: the four cases of the frame dibit, by the status turn, CAP_EN and CAP_PTR. -/
theorem frameDibitPath : Obligations.FrameDibitPath := by
  intro s d hframe d' turn
  refine ⟨_, exec_pushSymbol_of_ne_look hframe d, ?_⟩
  have hturn : turn ↔ (s.sync.stEn && isStatusTurn (s.sync.frameCnt + 1)) = true := by
    rw [Bool.and_eq_true_iff, isStatusTurn_succ_iff]
  rcases frameDibit_cases d (0x40000000 ||| d.setWidth 32) (s.setSync (lockedAfterSymbol s.cfg.nW s.sync d)) with
    ⟨he, hdue⟩ | ⟨hno, hdata⟩
  · have hyes : turn := hturn.2 (Bool.and_eq_true_iff.2 hdue)
    rw [he]
    exact ⟨rfl, fun _ => rfl, fun hn => absurd hyes hn, fun hn => absurd hyes hn, fun hn => absurd hyes hn⟩
  · have hnot : ¬ turn := mt hturn.1 (Bool.eq_false_iff.1 hno)
    rcases hdata with ⟨he, hcap, hlt⟩ | ⟨he, hcap, hge⟩ | ⟨he, hcap⟩ <;> rw [he]
    · exact ⟨rfl, fun ht => absurd ht hnot,
        fun _ _ _ => ⟨rfl, fun j => ⟨getD_setIfInBounds _ hlt j _ _, getD_setIfInBounds _ hlt j _ _⟩⟩,
        fun _ _ hfull => absurd hfull hlt.ne, fun _ hoff => (nomatch hcap.symm.trans hoff)⟩
    · exact ⟨rfl, fun ht => absurd ht hnot, fun _ _ hlt => absurd hlt (Nat.not_lt.2 hge), fun _ _ _ => rfl,
        fun _ hoff => (nomatch hcap.symm.trans hoff)⟩
    · exact ⟨rfl, fun ht => absurd ht hnot, fun _ hon => (nomatch hcap.symm.trans hon),
        fun _ hon => (nomatch hcap.symm.trans hon), fun _ _ => rfl⟩

end Sys2Proof.Machine
end

section
/-! The system commands (45_system.md): NOP, the one legal word of its header, and the state after SOFT_RESET. -/

namespace Sys2Proof.Machine

/-! ## NOP -/

/-- The word of a well-formed command issues that command (30_encoding.md R126). -/
theorem issue_encode {i : Instr} (hwf : i.wellFormed = true) (s : State) : issue (encode i) s = exec i s := by
  rw [issue, decodeOfEncode i hwf]

/-- Settles O22: 0x00000000 is the word of NOP, and NOP has no fields, so every operand bit is reserved. -/
theorem nopIsTheOnlyNop : Obligations.NopIsTheOnlyNop := by
  intro s v
  refine ⟨issue_encode (i := .nop) rfl s, rfl, fun hheader hne => ?_⟩
  exact ⟨_, issue_of_ne_header_word (o := .nop) rfl hheader hne s, onlyErrorRecord_recordError s .illegal v⟩

/-! ## SOFT_RESET -/

/-- With no sticky bit set IRQ is 0 (60_exceptions.md R328). -/
theorem irq_of_sticky_zero {s : State} (h : s.ctl.sticky = 0) : s.irq = false := by
  simp [State.irq, h]

/-- Settles O23: element by element SOFT_RESET writes the power-on value or keeps its own, and the cleared sticky bits
leave IRQ at 0. -/
theorem softResetState : Obligations.SoftResetState := by
  intro s b
  have hirq : (softReset s).irq = false := irq_of_sticky_zero rfl
  exact ⟨softReset s, rfl, rfl, rfl, rfl, rfl, rfl, rfl, rfl, rfl, rfl, rfl, rfl, rfl, hirq⟩

end Sys2Proof.Machine
end

section
/-! Exceptions (60_exceptions.md): IRQ, the words that fail decoding, and what a command reports in the global control
part. DSDCC-FSA takes no exception (R320): an error is the record of R321 and an event is one sticky bit (R327). -/

namespace Sys2Proof.Machine

/-! ## The interrupt output -/

theorem ne_zero_iff_exists_getLsbD {w : Nat} (v : BitVec w) : v ≠ 0 ↔ ∃ i, i < w ∧ v.getLsbD i = true := by
  rw [Ne, BitVec.eq_of_getLsbD_eq_iff]
  simp

/-- Settles O18: a flag that is set and enabled is a bit of STATUS and the same bit of IRQ_EN; neither register has a bit
of the other numbers from 8 to 20. -/
theorem irqIsTheEnabledStatusBits : Obligations.IrqIsTheEnabledStatusBits := by
  intro s x y
  refine ⟨fun hr => by simp [State.irq, hr], fun hr hx hy => ?_⟩
  obtain rfl := (readsAs_status hr x).1 hx
  obtain rfl : y = s.ctl.irqEn &&& stickyMask := (readsAs_iff hr (r := .irqEn) (by decide) y).1 hy
  have hirq : s.irq = true ↔ s.ctl.sticky &&& s.ctl.irqEn &&& stickyMask ≠ 0 := by simp [State.irq, hr]
  rw [hirq, ne_zero_iff_exists_getLsbD]
  refine exists_congr fun i => ?_
  simp only [BitVec.getLsbD_and, Bool.and_eq_true]
  constructor
  · rintro ⟨hi, ⟨hset, henabled⟩, hflag⟩
    have hrange := hflag
    rw [getLsbD_stickyMask i hi, decide_eq_true_iff] at hrange
    obtain ⟨hlo, hhi, h14, h15⟩ := hrange
    exact ⟨hlo, hhi, ((statusWord_fields s).1 i hlo hhi h14 h15).trans hset, henabled, hflag⟩
  · rintro ⟨hlo, hhi, hset, henabled, hflag⟩
    rw [getLsbD_statusWord, if_neg (by omega), Bool.and_eq_true] at hset
    exact ⟨by omega, ⟨hset.1, henabled⟩, hflag⟩

/-! ## The words that fail decoding -/

theorem lookup_reservedBits (o : Opcode) : reservedBits.lookup o.header = some o.reservedMask := by cases o <;> rfl

/-- The word of a command passes the checks of R114 on its header and its reserved bits, so it is illegal only by a field
value. -/
theorem illegalWord_encode (cfg : Cfg) (i : Instr) : illegalWord cfg (encode i) = illegalField cfg (encode i) := by
  obtain ⟨hheader, hreserved⟩ := encodedShape i
  unfold illegalWord
  rw [hheader, lookup_reservedBits]
  simp [hreserved]

/-- The lowest field of a command's word is the lowest bits of its operand bits (R112). -/
theorem toNat_encode_mod {i : Instr} {n : Nat} (hn : n ≤ 24) :
    (encode i).toNat % 2 ^ n = (i.operandBits.extractLsb' 0 n).toNat := by
  rw [← extractLsb'_encode (by omega), BitVec.extractLsb'_toNat, Nat.shiftRight_zero]

/-- The one illegal field value of R118 that the decoder does not see is an absent slot of DEINT (log 9). -/
theorem exists_absent_slot_of_illegalField {cfg : Cfg} {i : Instr} (hwf : i.wellFormed = true)
    (h : illegalField cfg (encode i) = true) : ∃ slot : BitVec 3, i = .deint slot ∧ cfg.permOf slot.toNat = [] := by
  have hlow4 : (encode i).toNat % 16 = (i.operandBits.extractLsb' 0 4).toNat := toNat_encode_mod (n := 4) (by decide)
  have hlow3 : (encode i).toNat % 8 = (i.operandBits.extractLsb' 0 3).toNat := toNat_encode_mod (n := 3) (by decide)
  simp only [illegalField, (encodedShape i).1, hlow4, hlow3] at h
  cases i with
  | fecDecode c => cases c <;> cases h
  | fecEncode c =>
    cases c with
    | rs2412 => cases hwf
    | ham74 | ham106 | ham128 | ham1511 | ham1611 | gol208 | gol2312 | gol2412 | gol24128 | bch6316 | qr167 => cases h
  | deint slot =>
    rw [Instr.operandBits, BitVec.extractLsb'_append_eq_right] at h
    exact ⟨slot, rfl, by simpa [Instr.opcode, Opcode.header] using h⟩
  | nop | softReset | convStart | convStep | convChainback | convEncode | trellis12 | pushSymbol | pushSample | resync
  | syncReset | pack => cases h

/-- Settles O5: a word that decodes is illegal only as a DEINT of an absent slot, which fails as DEINT. -/
theorem illegalWordOnlyRecordsErrIllegal : Obligations.IllegalWordOnlyRecordsErrIllegal := by
  intro v s hillegal
  rcases issue_cases v s with ⟨i, hdecode, hissue⟩ | ⟨-, -, hissue⟩ <;> rw [hissue]
  · obtain ⟨hwf, rfl⟩ := encodeOfDecode v i hdecode
    rw [illegalWord_encode] at hillegal
    obtain ⟨slot, rfl, habsent⟩ := exists_absent_slot_of_illegalField hwf hillegal
    rw [encode_deint]
    exact (deintGathers s slot).2 habsent
  · exact ⟨_, rfl, onlyErrorRecord_recordError s .illegal v⟩

/-! ## What a command reports -/

/-- What a command that is not refused leaves of the global control part: all of it, the bit of one event beside it
(R327), or, for a PUSH_SYMBOL, the record of ERR_OVF (R325); v is the command's word. -/
inductive Reports (v : Word) (c : Control) : Control → Prop where
  | silent : Reports v c c
  | event (e : Event) : Reports v c { c with sticky := c.sticky ||| BitVec.twoPow 32 e.bit }
  | overflow (hv : v.extractLsb' 24 8 = 0x40) :
    Reports v c { c with sticky := c.sticky ||| BitVec.twoPow 32 ErrKind.ovf.bit, errCode := ErrKind.ovf.code, errInfo := v }

/-- A command that leaves the global control part reports nothing. -/
theorem reports_of_ctl_eq {v : Word} {c c' : Control} (h : c' = c) : Reports v c c' := h ▸ .silent

/-- The errors a command is refused with: it is the record of one of them and nothing else (R322 to R324). -/
def ErrKind.refuses (e : ErrKind) : Prop := e = .illegal ∨ e = .cap ∨ e = .range

theorem noMatch_reports (v : Word) (s : State) : Reports v s.ctl (noMatch s).ctl := by
  rcases noMatch_cases s with ⟨h, -⟩ | ⟨h, -⟩ <;> rw [h]
  · exact .event .nosync
  · exact .silent

theorem lookSymbol_reports (v : Word) (warm : Bool) (s : State) : Reports v s.ctl (lookSymbol warm s).ctl := by
  rcases lookSymbol_cases warm s with ⟨u, -, h⟩ | ⟨u, idx, e, m, -, -, -, h⟩ <;> rw [h]
  · exact noMatch_reports v (s.setSync u)
  · exact .event .sync

theorem frameDibit_reports (d : Dibit) {v : Word} (hv : v.extractLsb' 24 8 = 0x40) (s : State) :
    Reports v s.ctl (frameDibit d v s).ctl := by
  rcases frameDibit_cases d v s with ⟨h, -⟩ | ⟨-, ⟨h, -⟩ | ⟨h, -⟩ | ⟨h, -⟩⟩ <;> rw [h]
  · exact .event .status
  · exact .silent
  · exact .overflow hv
  · exact .silent

/-- A symbol is a search symbol in LOOK and a frame dibit elsewhere, after the counts of the sync unit (43_sync.md R236). -/
theorem pushSymbol_cases (d : Dibit) (s : State) :
    (∃ u, pushSymbol d s = lookSymbol s.sync.warm (s.setSync u)) ∨
    ∃ u, pushSymbol d s = frameDibit d (encode (.pushSymbol d)) (s.setSync u) := by
  rw [pushSymbol_eq]
  cases s.sync.state with
  | look => exact .inl ⟨_, rfl⟩
  | found | locked => exact .inr ⟨_, rfl⟩

theorem pushSymbol_reports (d : Dibit) (s : State) : Reports (encode (.pushSymbol d)) s.ctl (pushSymbol d s).ctl := by
  rcases pushSymbol_cases d s with ⟨u, h⟩ | ⟨u, h⟩ <;> rw [h]
  · exact lookSymbol_reports _ _ (s.setSync u)
  · exact frameDibit_reports d (encodedShape (.pushSymbol d)).1 (s.setSync u)

theorem pushSample_reports (w : Word) (v : BitVec 16) (s : State) : Reports w s.ctl (pushSample v s).ctl := by
  rcases pushSample_cases v s with ⟨-, h⟩ | ⟨-, -, ⟨-, h⟩ | ⟨-, h⟩⟩ <;> rw [h]
  · exact .silent
  · exact .event .squelch
  · exact .silent

theorem fecDecode_reports (v : Word) (c : Code) (s : State) : Reports v s.ctl (fecDecode c s).ctl := by
  obtain ⟨u, -, ⟨b, h⟩ | h⟩ := fecDecode_frame c s <;> rw [h]
  · cases b with
    | true => exact .event .fecFail
    | false => exact .silent
  · exact .silent

theorem trellis12_reports (v : Word) (s : State) : Reports v s.ctl (trellis12 s).ctl := by
  rcases trellis12_cases s with ⟨-, h⟩ | ⟨k, -, -, h⟩ <;> rw [h]
  · exact .silent
  · exact .event .trlFail

/-- Every command but SOFT_RESET is refused, or goes through with at most one report (R320, R321, R331). -/
theorem effect_report_cases {i : Instr} (hi : i ≠ .softReset) (s : State) :
    (∃ e : ErrKind, e.refuses ∧ effect i s = s.recordError e (encode i)) ∨ Reports (encode i) s.ctl (effect i s).ctl := by
  cases i with
  | softReset => exact absurd rfl hi
  | nop | convStart | resync | syncReset => exact .inr .silent
  | fecDecode c => exact .inr (fecDecode_reports _ c s)
  | trellis12 => exact .inr (trellis12_reports _ s)
  | pushSymbol d => exact .inr (pushSymbol_reports d s)
  | pushSample v => exact .inr (pushSample_reports _ v s)
  | fecEncode c =>
    rcases fecEncode_cases c s with ⟨-, h⟩ | ⟨-, h⟩ <;> rw [effect, h]
    · exact .inl ⟨.illegal, .inl rfl, rfl⟩
    · exact .inr (reports_of_ctl_eq (by simp))
  | deint slot =>
    rcases deint_cases slot s with ⟨-, h⟩ | ⟨-, h⟩ <;> rw [effect, h]
    · exact .inl ⟨.illegal, .inl rfl, rfl⟩
    · exact .inr (reports_of_ctl_eq (by simp))
  | convStep s0 s1 =>
    rcases convStep_cases s0 s1 s with ⟨-, h⟩ | ⟨-, h⟩ <;> rw [effect, h]
    · exact .inl ⟨.cap, .inr (.inl rfl), rfl⟩
    · exact .inr (reports_of_ctl_eq (by simp))
  | convChainback n =>
    rcases convChainback_cases n s with ⟨-, h⟩ | ⟨-, h⟩ <;> rw [effect, h]
    · exact .inl ⟨.range, .inr (.inr rfl), rfl⟩
    · exact .inr (reports_of_ctl_eq (by simp))
  | convEncode n =>
    rcases convEncode_cases n s with ⟨-, h⟩ | ⟨-, h⟩ <;> rw [effect, h]
    · exact .inl ⟨.range, .inr (.inr rfl), rfl⟩
    · exact .inr (reports_of_ctl_eq (by simp))
  | pack off cnt shr =>
    rcases pack_cases off cnt shr s with ⟨-, h⟩ | ⟨-, h⟩ <;> rw [effect, h]
    · exact .inl ⟨.range, .inr (.inr rfl), rfl⟩
    · exact .inr (reports_of_ctl_eq (by simp))

/-- Any word but that of SOFT_RESET is refused, whether by the decoder or by its command, or goes through with at most one
report. -/
theorem issue_report_cases {v : Word} (hv : v ≠ 0x01000000) {s t : State} (h : issue v s = .next t) :
    (∃ e : ErrKind, e.refuses ∧ t = s.recordError e v) ∨ Reports v s.ctl t.ctl := by
  rcases issue_cases v s with ⟨i, hdecode, hissue⟩ | ⟨-, -, hissue⟩ <;> rw [hissue] at h
  · obtain ⟨-, rfl⟩ := encodeOfDecode v i hdecode
    obtain rfl := effect_of_exec_eq_next h
    exact effect_report_cases (fun hi => hv (congrArg encode hi)) s
  · cases h
    exact .inl ⟨.illegal, .inl rfl, rfl⟩

/-- Settles O55: an error or an event sets its own bit, and SOFT_RESET clears the sticky bits. -/
theorem oneReportPerCommand : Obligations.OneReportPerCommand := by
  intro v s t h
  by_cases hv : v = 0x01000000
  · subst hv
    obtain rfl : softReset s = t := Host.Outcome.next.inj ((issue_encode (i := .softReset) rfl s).symm.trans h)
    exact .inl ⟨rfl, rfl⟩
  · refine .inr ?_
    rcases issue_report_cases hv h with ⟨e, -, rfl⟩ | hreport
    · exact ⟨_, .inr (.inl ⟨e, rfl⟩), rfl⟩
    · generalize t.ctl = c at hreport ⊢
      cases hreport with
      | silent => exact ⟨0, .inl rfl, BitVec.or_zero.symm⟩
      | event e => exact ⟨_, .inr (.inr ⟨e, rfl⟩), rfl⟩
      | overflow => exact ⟨_, .inr (.inl ⟨.ovf, rfl⟩), rfl⟩

/-- The events are below the error bits of STATUS (10_state.md R36). -/
theorem Event.bit_lt (e : Event) : e.bit < 16 := by cases e <;> decide

/-- Settles O56: a refused command is the record of its error; one that goes through leaves the error record, unless it
is a PUSH_SYMBOL that overflows. -/
theorem failedCommandChangesNothingElse : Obligations.FailedCommandChangesNothingElse := by
  intro v s t hv h
  rcases issue_report_cases hv h with ⟨e, he, rfl⟩ | hreport
  · refine .inr (.inl ?_)
    have hrecord := onlyErrorRecord_recordError s e v
    rcases he with rfl | rfl | rfl
    · exact .inl hrecord
    · exact .inr (.inl hrecord)
    · exact .inr (.inr hrecord)
  · generalize t.ctl = c at hreport ⊢
    cases hreport with
    | silent => exact .inl ⟨rfl, rfl, fun _ _ => rfl⟩
    | event e =>
      refine .inl ⟨rfl, rfl, fun i hi => ?_⟩
      have hne : e.bit ≠ i := (e.bit_lt.trans_le hi).ne
      simp [BitVec.getLsbD_twoPow, hne]
    | overflow hword => exact .inr (.inr ⟨hword, rfl, rfl, rfl⟩)

end Sys2Proof.Machine
end

section
/-! Reset and hazards (70_reset_and_hazards.md): the idle step and the accesses while RST_N is 0, and the power-on state,
which the release of RST_N returns to. -/

namespace Sys2Proof.Machine

/-! ## While RST_N is 0, and without an access -/

/-- With no access waiting the block is idle "with all state held" (70_reset_and_hazards.md R365). -/
theorem step_of_pending_nil {s : State} (h : s.pending = []) : step s = .next s := by
  simp [step, stepInput, h]

section
variable {s : State} (hr : s.rstN = false)
include hr

/-- "While RST_N is 0 the block ignores bus accesses (a read returns 0)" (70_reset_and_hazards.md R350). -/
theorem step_read_inReset (a : Offset) (width : AccessWidth) :
    step (s.offer (.read a width)) = .next (s.setRdata 0) := by
  simp [step_offer, hostInput, hr]

theorem step_write_inReset (a : Offset) (width : AccessWidth) (v : Word) :
    step (s.offer (.write a width v)) = .next s := by
  simp [step_offer, hostInput, hr]

/-- Driving RST_N to 1 is a release only where it is 0 (log 8). -/
theorem step_resetHigh_inReset : step (s.offer .resetHigh) = .next (releaseReset s) := by
  simp [step_offer, hostInput, hr]

theorem irq_inReset : s.irq = false := by
  simp [State.irq, hr]

end

theorem step_resetLow (s : State) : step (s.offer .resetLow) = .next (s.setRstN false) := rfl

theorem step_resetHigh_of_rstN {s : State} (hr : s.rstN = true) : step (s.offer .resetHigh) = .next s := by
  simp [step_offer, hostInput, hr]

/-- Settles O19: an access does nothing beyond the read word while RST_N is 0, and the levels of RST_N are as above. -/
theorem nothingHappensWithoutAnAccess : Obligations.NothingHappensWithoutAnAccess := fun s a width v =>
  ⟨step_of_pending_nil, fun hr => ⟨step_read_inReset hr a width, step_write_inReset hr a width v, irq_inReset hr⟩,
    step_resetLow s, step_resetHigh_of_rstN⟩

/-! ## The elements of a new instance -/

theorem vector_getD_replicate_default {α : Type} {n : Nat} (d : α) (j : Nat) :
    (Vector.replicate n d).getD j d = d := by
  simp [Vector.getD, Array.getD]

theorem vector_getD_replicate_of_lt {α : Type} {n j : Nat} (x d : α) (h : j < n) :
    (Vector.replicate n x).getD j d = x := by
  simp [Vector.getD, h]

/-- The first m elements are x and the rest 0, also past the end (TDIB, TOUT: 10_state.md R53, R54). -/
theorem getD_ofFn_prefix {w n m : Nat} (hm : m ≤ n) (x : BitVec w) (j : Nat) :
    (Vector.ofFn (fun i : Fin n => if i.val < m then x else 0)).getD j 0 = if j < m then x else 0 := by
  rw [getD_ofFn]
  split
  · rfl
  · next hj => exact (if_neg fun h => hj (h.trans_le hm)).symm

/-- The window of a new sync unit is N_W zero symbols (10_state.md R61), so every element of it reads 0. -/
theorem window_reset_getD (cfg : Cfg) (j : Nat) : (SyncUnit.reset cfg).window.getD j 0 = 0 := by
  show (List.replicate cfg.nW (0 : Dibit)).getD j 0 = 0
  rw [List.getD_eq_getElem?_getD, List.getElem?_getD_replicate_default_eq]

theorem SyncInfo.word_zero : SyncInfo.zero.word = 0 := by decide

theorem FecRes.word_zero : FecRes.zero.word = 0 := by decide

theorem TrlRes.word_zero : TrlRes.zero.word = 0 := by decide

theorem DilUnit.statWord_of_zero {u : DilUnit} (hdibit : u.statDibit = 0) (hcnt : u.statCnt = 0) : u.statWord = 0 := by
  rw [DilUnit.statWord, hdibit, hcnt]
  decide

/-- The registers of several fields in a state that has RST_N 1 and their power-on values: WARM is the one bit set
(70_reset_and_hazards.md R351). -/
theorem fieldRegisters_read_powerOn {t : State} (hr : t.rstN = true) (hsticky : t.ctl.sticky = 0)
    (hsync : t.sync = SyncUnit.reset t.cfg) (hdibit : t.dil.statDibit = 0) (hcnt : t.dil.statCnt = 0)
    (hfec : t.fec.fecRes = FecRes.zero) (htrl : t.trl.trlRes = TrlRes.zero) :
    readsAs t 0x0008 0x04 ∧ readsAs t 0x0020 0 ∧ readsAs t 0x003C 0 ∧ readsAs t 0x0040 0 ∧ readsAs t 0x0044 0 := by
  have hstatus : readReg t .status = 0x04 := by
    show (t.ctl.sticky &&& stickyMask) ||| t.sync.liveBits.setWidth 32 = 0x04
    rw [hsticky, hsync, liveBits_reset]
    rfl
  have hinfo : readReg t .syncInfo = 0 := (congrArg (fun u => u.info.word) hsync).trans SyncInfo.word_zero
  have hstat : readReg t .stat = 0 := DilUnit.statWord_of_zero hdibit hcnt
  have hfecRes : readReg t .fecRes = 0 := (congrArg FecRes.word hfec).trans FecRes.word_zero
  have htrlRes : readReg t .trlRes = 0 := (congrArg TrlRes.word htrl).trans TrlRes.word_zero
  exact ⟨hstatus ▸ readsAs_readReg hr (by decide) rfl, hinfo ▸ readsAs_readReg hr (by decide) rfl,
    hstat ▸ readsAs_readReg hr (by decide) rfl, hfecRes ▸ readsAs_readReg hr (by decide) rfl,
    htrlRes ▸ readsAs_readReg hr (by decide) rfl⟩

/-! ## The power-on state -/

/-- Settles O20: the release gives the power-on state of the same configuration beside the host's side. -/
theorem releasedResetState : Obligations.ReleasedResetState := by
  intro s hr
  obtain ⟨hstatus, hinfo, hstat, hfec, htrl⟩ :=
    fieldRegisters_read_powerOn (t := releaseReset s) rfl rfl rfl rfl rfl rfl rfl
  have hirq : (releaseReset s).irq = false := irq_of_sticky_zero rfl
  exact ⟨releaseReset s, step_resetHigh_inReset hr, rfl, rfl, rfl, rfl, rfl, rfl, rfl, rfl, rfl,
    hstatus, hinfo, hstat, hfec, htrl,
    vector_getD_replicate_default 0, rfl, List.length_replicate, window_reset_getD s.cfg,
    rfl, rfl, rfl, rfl, rfl, rfl, rfl, rfl, rfl, rfl, rfl, rfl, hirq⟩

/-- Settles O21: the values are those State.powerOn writes, and the words read are made of them. -/
theorem powerOnState : Obligations.PowerOnState := by
  refine ⟨⟨Config.built, Config.powerOn 0, Config.built_wf, rfl⟩, fun cfg b => ?_⟩
  obtain ⟨hstatus, hinfo, hstat, hfec, htrl⟩ :=
    fieldRegisters_read_powerOn (t := State.powerOn cfg b) rfl rfl rfl rfl rfl rfl rfl
  obtain ⟨hid, hctrl, -, hirqEn, hsqThresh, herrCode, herrInfo, -⟩ := scalarRegistersRead (State.powerOn cfg b) rfl
  have hmasked : (State.powerOn cfg b).ctl.irqEn &&& 0x001F3F00 = 0 := BitVec.zero_and
  rw [hmasked] at hirqEn
  have hirq : (State.powerOn cfg b).irq = false := irq_of_sticky_zero rfl
  exact ⟨rfl, rfl, rfl, hirq, rfl, rfl, rfl, rfl, rfl, rfl, rfl, rfl,
    vector_getD_replicate_default 0, rfl, List.length_replicate, window_reset_getD cfg,
    rfl, rfl, rfl, rfl, rfl, rfl, rfl, rfl, rfl, rfl, rfl, rfl, rfl, rfl,
    hid, hctrl, hstatus, hirqEn, hsqThresh, herrCode, herrInfo, hinfo, hstat, hfec, htrl,
    rfl, rfl, rfl, rfl, rfl, rfl, rfl,
    fun _ => vector_getD_replicate_of_lt _ _,
    fun _ hj => ⟨vector_getD_replicate_of_lt _ _ hj, vector_getD_replicate_of_lt _ _ hj⟩,
    getD_ofFn_prefix (by decide) 3, getD_ofFn_prefix (by decide) 0xFF⟩

/-- Settles O60: the reset state is the power-on state of a valid configuration. -/
theorem resetMeetsInvariant : Obligations.ResetMeetsInvariant :=
  ⟨inv_powerOn Config.built_wf _, fun _ b hcfg => inv_powerOn hcfg b⟩

end Sys2Proof.Machine
end
